-- ==== Sys2Proof/Word.lean ====
section
/-! DEFINITION. The widths of the block's registers and the four kinds of step word (spec/10_state.md, spec/30_encoding.md R60 to R67). -/

namespace Sys2Proof

/-- One byte of the framebuffer's reserved header `FB_HDR` (R32). -/
abbrev Byte := BitVec 8

/-- A millisecond timestamp, `TW` = 32 bits (R5, R14, R25, R28). -/
abbrev Time := BitVec 32

/-- A raw analog sample, 12 bits unsigned (R20, R42). -/
abbrev Sample := BitVec 12

/-- A deflection, 12 bits unsigned (R21). -/
abbrev Deflection := BitVec 12

/-- A brightness level, 12 bits unsigned (R15, R16, R24). -/
abbrev Level := BitVec 12

/-- A cursor coordinate, 8 bits two's complement (R23). -/
abbrev Cursor := BitVec 8

/-- An analog channel identifier, the type of `CH_X`, `CH_Y` and `ADC_SEL` (R5, R19, R41). -/
abbrev Channel := Nat

/-- A step word: its kind is its format, and each format has one width (R60, R72).
A decoder tells the format from the kind of step, never from the bits. -/
inductive StepWord where
  /-- Format P: a foreground step, 5 bits (R61, R62). -/
  | phase (op : BitVec 5)
  /-- Format I: a handler step, 1 bit (R63). -/
  | irq (line : BitVec 1)
  /-- Format F: a framebuffer command, 36 bits (R64, R65). -/
  | command (cmd : BitVec 36)
  /-- Format E: an environment event, 4 bits (R67). -/
  | event (ev : BitVec 4)
deriving DecidableEq, Repr

end Sys2Proof
end

