-- ==== Sys2Proof/Config.lean ====
section
/-! DEFINITION. The compiled-in constants of R4, the parameters of R5, the configuration check of R68 and R116, and the free values. -/

namespace Sys2Proof.Config

/-- `DISP_W` (R4). -/
def dispW : Nat := 128
/-- `DISP_H` (R4). -/
def dispH : Nat := 64
/-- `BUS_ADDR`: the one display the block flushes to (R4, R45). -/
def busAddr : Nat := 0x3C
/-- `PWM_WRAP` (R4). -/
def pwmWrap : Nat := 4095
/-- `DZ_RADIUS` (R4). -/
def dzRadius : Nat := 200
/-- `DEBOUNCE_MS` (R4). -/
def debounceMs : Nat := 200
/-- `SLEEP_MS` (R4). -/
def sleepMs : Nat := 100
/-- `CENTER` (R4). -/
def center : Nat := 2048
/-- `ADC_MAX` (R4). -/
def adcMax : Nat := 4095
/-- `GAIN` (R4). -/
def gain : Nat := 2
/-- `MARKER` (R4). -/
def marker : Nat := 8
/-- `THIN_MARGIN` (R4). -/
def thinMargin : Nat := 2
/-- `N_BORDER` (R4). -/
def nBorder : Nat := 3
/-- The default of `OX`, the framebuffer column of a centred marker's left edge (R5, R123; decision D22). -/
def ox : Int := 60
/-- The default of `OY`, the framebuffer row of a centred marker's top edge (R5, R123; decision D22). -/
def oy : Int := 28

/-- The configurations a model may take: the level constraint of R116 and the offset range of R68. -/
def accepted (radius gainBy wrap : Nat) (offX offY : Int) : Bool :=
  decide ((center - radius) * gainBy ≤ wrap) &&
    decide (-196 ≤ offX ∧ offX ≤ 195) && decide (-228 ≤ offY ∧ offY ≤ 227)

/-- FREE VALUE. The environment's answer to the analog read made when no sample is queued (R30, U1): any 12-bit
value, a fresh one for each value of the counter. Log entry 6. -/
opaque adcDraw : Nat → Sample

/-- FREE VALUE. Which of two pending lines the free-running machine handles first (R170, U5): `true` for the joystick
button. Log entry 7. -/
opaque irqOrder : Nat → Bool

/-- FREE VALUE. What the 12-bit level register holds when the level formula leaves its range, which no rule states
(R6, R116, U3). Log entry 8. -/
opaque levelOutside : Int → Level

end Sys2Proof.Config

namespace Sys2Proof

/-- The parameters of R5 that a model takes as arguments. They are the machine's configuration: `State.params` holds
them, no step changes them, and a statement about every state holds for every value of them. Log entry 9. -/
structure Params where
  /-- `CH_X`, the channel identifier read for the X axis: open (R5, R41, U4). -/
  chX : Channel
  /-- `CH_Y`, the channel identifier read for the Y axis: open (R5, R41, U4). -/
  chY : Channel
  /-- `OX`: the framebuffer column of the marker's left edge when `CUR_X` is 0 (R5, R123, U19). -/
  ox : Int
  /-- `OY`: the framebuffer row of the marker's top edge when `CUR_Y` is 0 (R5, R123, U19). -/
  oy : Int
  /-- `FB_HDR_LEN`, the number of reserved header bytes of the buffer: open (R5, R32, U9). -/
  fbHdrLen : Nat
  /-- `FB_LAYOUT`, the packing of pixels into buffer bytes: entry `128 * y + x` is the buffer bit of pixel `(x, y)`.
  Open, and no rule reads it (R5, R44, U10). -/
  fbLayout : List Nat
  /-- `WORK_MS`, a bound on the ticks of a frame's working operations; `none` assumes no bound (R5, R159, U11). -/
  workMs : Option Nat
deriving DecidableEq, Repr

/-- A configuration a model may take (R41, R68, R116): distinct channels, an offset in range, the level constraint. -/
def Params.accepted (p : Params) : Bool :=
  decide (p.chX ≠ p.chY) && Config.accepted Config.dzRadius Config.gain Config.pwmWrap p.ox p.oy

/-- Do the lines of a frame from `SELX` to `SLPE` keep the bound `WORK_MS`, when it has a value (R159)? -/
def Params.workWithin (p : Params) (ticks : Nat) : Prop :=
  ∀ bound, p.workMs = some bound → ticks ≤ bound

/-- The configuration of `State.reset`: the marker at its default origin (R5) and no bound on the work; the channel
numbers, the header length and the layout, which R5 leaves open, are the model's choice (log entry 9). -/
def Params.default : Params where
  chX := 0
  chY := 1
  ox := Config.ox
  oy := Config.oy
  fbHdrLen := 1
  fbLayout := []
  workMs := none

end Sys2Proof
end

