-- ==== Sys2Proof/Syntax.lean ====
section
/-! DEFINITION. The instructions: one constructor per row of spec/opcode_table.json (R9, R69). -/

namespace Sys2Proof

/-- An instruction is one operation of one agent (R9). -/
inductive Instr where
  /-- `SELX`, format P code 0 (R100). -/
  | selx
  /-- `RDX`, code 1 (R101). -/
  | rdx
  /-- `SELY`, code 2 (R102). -/
  | sely
  /-- `RDY`, code 3 (R103). -/
  | rdy
  /-- `DZX`, code 4 (R104). -/
  | dzx
  /-- `DZY`, code 5 (R105). -/
  | dzy
  /-- `CMAP`, code 6 (R121). -/
  | cmap
  /-- `LVLX`, code 7 (R111). -/
  | lvlx
  /-- `DRVX`, code 8 (R112). -/
  | drvx
  /-- `LVLY`, code 9 (R113). -/
  | lvly
  /-- `DRVY`, code 10 (R114). -/
  | drvy
  /-- `CLR`, code 11 (R131). -/
  | clr
  /-- `BRD`, code 12 (R132). -/
  | brd
  /-- `MRK`, code 13 (R133). -/
  | mrk
  /-- `FLS`, code 14 (R134). -/
  | fls
  /-- `SLPE`, code 15 (R152). -/
  | slpe
  /-- `SLPW`, code 16 (R153). -/
  | slpw
  /-- `IRQ_A`, format I line 0 (R84). -/
  | irqA
  /-- `IRQ_J`, format I line 1 (R85). -/
  | irqJ
  /-- `CLEAR`, format F `fop` 0 (R137). -/
  | clear
  /-- `RECT`, format F `fop` 1: signed left column and top row, width, height (R138). -/
  | rect (fill : Bool) (x y : Int) (w h : Nat)
  /-- `FLUSH`, format F `fop` 2 (R140). -/
  | flush
  /-- `TICK`, format E `ev` 0 (R155). -/
  | tick
  /-- `INPUT a j`, format E `ev` 1: the new line levels, `true` for 1, released (R80, R156). -/
  | input (a j : Bool)
  /-- `RESET`, format E `ev` 2 (R157, R190). -/
  | reset
deriving DecidableEq, Repr

end Sys2Proof
end

