-- ==== Sys2Proof/WellFormed.lean ====
section
/-! DEFINITION. Which instructions an encoding can express: the operand ranges of R64 and R138. -/

namespace Sys2Proof

/-- Every operand fits its field. Only `RECT` has operand fields that can be out of range (R64, R138). -/
def wellFormed (i : Instr) : Bool :=
  match i with
  | .rect _ x y w h =>
      decide (-256 ≤ x) && decide (x ≤ 255) && decide (-256 ≤ y) && decide (y ≤ 255) &&
        decide (w ≤ 255) && decide (h ≤ 127)
  | .selx | .rdx | .sely | .rdy | .dzx | .dzy | .cmap | .lvlx | .drvx | .lvly | .drvy
  | .clr | .brd | .mrk | .fls | .slpe | .slpw | .irqA | .irqJ | .clear | .flush
  | .tick | .input _ _ | .reset => true

/-- `wellFormed` as a proposition. -/
abbrev WellFormed (i : Instr) : Prop := wellFormed i = true

end Sys2Proof
end

