-- ==== Sys2Proof/Decode.lean ====
section
/-! DEFINITION. The decoder, total on every step word, and the encoder (spec/30_encoding.md R60 to R67, R73). -/

namespace Sys2Proof

/-- Why a step word is no instruction (R73, U8). -/
inductive DecodeError where
  /-- A format-P code 17 to 31. -/
  | reservedPhase
  /-- A format-F word with `fop` = 3. -/
  | reservedFrameOp
  /-- A format-E word with `ev` = 3. -/
  | reservedEvent
  /-- Non-zero bits in a field that `CLEAR`, `FLUSH`, `TICK` or `RESET` does not use. -/
  | strayBits
deriving DecidableEq, Repr

/-- Field `fop` of a format-F word, bits 35:34 (R64). -/
def fieldFop (w : BitVec 36) : BitVec 2 := w.extractLsb' 34 2
/-- Field `fill`, bit 33. -/
def fieldFill (w : BitVec 36) : Bool := w.getLsbD 33
/-- Field `x`, bits 32:24, two's complement. -/
def fieldX (w : BitVec 36) : Int := (w.extractLsb' 24 9).toInt
/-- Field `y`, bits 23:15, two's complement. -/
def fieldY (w : BitVec 36) : Int := (w.extractLsb' 15 9).toInt
/-- Field `w`, bits 14:7, unsigned. -/
def fieldW (w : BitVec 36) : Nat := (w.extractLsb' 7 8).toNat
/-- Field `h`, bits 6:0, unsigned. -/
def fieldH (w : BitVec 36) : Nat := (w.extractLsb' 0 7).toNat
/-- Bits 33:0, which are zero in a `CLEAR` and in a `FLUSH` word (R65, R73). -/
def fieldRest (w : BitVec 36) : BitVec 34 := w.extractLsb' 0 34

/-- The phase codes of R62. -/
def decodePhase (op : BitVec 5) : Except DecodeError Instr :=
  match op.toNat with
  | 0 => .ok .selx
  | 1 => .ok .rdx
  | 2 => .ok .sely
  | 3 => .ok .rdy
  | 4 => .ok .dzx
  | 5 => .ok .dzy
  | 6 => .ok .cmap
  | 7 => .ok .lvlx
  | 8 => .ok .drvx
  | 9 => .ok .lvly
  | 10 => .ok .drvy
  | 11 => .ok .clr
  | 12 => .ok .brd
  | 13 => .ok .mrk
  | 14 => .ok .fls
  | 15 => .ok .slpe
  | 16 => .ok .slpw
  | _ => .error .reservedPhase

/-- The line index of R63. -/
def decodeIrq (line : BitVec 1) : Instr :=
  if line = 0#1 then .irqA else .irqJ

/-- The framebuffer commands of R64 and R65; a stray bit is refused (R73). -/
def decodeCommand (w : BitVec 36) : Except DecodeError Instr :=
  match (fieldFop w).toNat with
  | 0 => if fieldRest w = 0#34 then .ok .clear else .error .strayBits
  | 1 => .ok (.rect (fieldFill w) (fieldX w) (fieldY w) (fieldW w) (fieldH w))
  | 2 => if fieldRest w = 0#34 then .ok .flush else .error .strayBits
  | _ => .error .reservedFrameOp

/-- The environment events of R67; a stray bit is refused (R73). -/
def decodeEvent (w : BitVec 4) : Except DecodeError Instr :=
  match (w.extractLsb' 2 2).toNat with
  | 0 => if w.extractLsb' 0 2 = 0#2 then .ok .tick else .error .strayBits
  | 1 => .ok (.input (w.getLsbD 1) (w.getLsbD 0))
  | 2 => if w.extractLsb' 0 2 = 0#2 then .ok .reset else .error .strayBits
  | _ => .error .reservedEvent

/-- The decoder: the kind of step gives the format, the bits give the operation (R72). -/
def decode (w : StepWord) : Except DecodeError Instr :=
  match w with
  | .phase op => decodePhase op
  | .irq line => .ok (decodeIrq line)
  | .command cmd => decodeCommand cmd
  | .event ev => decodeEvent ev

/-- A format-F word from its fields, `fop ++ fill ++ x ++ y ++ w ++ h` (R64). -/
def commandWord (fop : BitVec 2) (fill : Bool) (x y : Int) (w h : Nat) : BitVec 36 :=
  fop ++ BitVec.ofBool fill ++ BitVec.ofInt 9 x ++ BitVec.ofInt 9 y ++ BitVec.ofNat 8 w ++ BitVec.ofNat 7 h

/-- A format-E word from its fields, `ev ++ a ++ j` (R67). -/
def eventWord (ev : BitVec 2) (a j : Bool) : BitVec 4 :=
  ev ++ BitVec.ofBool a ++ BitVec.ofBool j

/-- The encoder, from the tables of R62, R63, R64 and R67. -/
def encode (i : Instr) : StepWord :=
  match i with
  | .selx => .phase 0b00000#5
  | .rdx => .phase 0b00001#5
  | .sely => .phase 0b00010#5
  | .rdy => .phase 0b00011#5
  | .dzx => .phase 0b00100#5
  | .dzy => .phase 0b00101#5
  | .cmap => .phase 0b00110#5
  | .lvlx => .phase 0b00111#5
  | .drvx => .phase 0b01000#5
  | .lvly => .phase 0b01001#5
  | .drvy => .phase 0b01010#5
  | .clr => .phase 0b01011#5
  | .brd => .phase 0b01100#5
  | .mrk => .phase 0b01101#5
  | .fls => .phase 0b01110#5
  | .slpe => .phase 0b01111#5
  | .slpw => .phase 0b10000#5
  | .irqA => .irq 0#1
  | .irqJ => .irq 1#1
  | .clear => .command (commandWord 0#2 false 0 0 0 0)
  | .rect fill x y w h => .command (commandWord 1#2 fill x y w h)
  | .flush => .command (commandWord 2#2 false 0 0 0 0)
  | .tick => .event (eventWord 0#2 false false)
  | .input a j => .event (eventWord 1#2 a j)
  | .reset => .event (eventWord 2#2 false false)

/-- The step word a row of the opcode table stands for, told from the row's width: 5 bits format P, 1 bit format I,
36 bits format F, 4 bits format E; widths rounded up to whole bytes are taken too, and then 8 bits are read as
format P (log entry 12). A number with bits above the format's width is no word. -/
def stepWordOfTable (nbits w : Nat) : Option StepWord :=
  if nbits = 5 ∨ nbits = 8 then
    if w < 32 then some (.phase (BitVec.ofNat 5 w)) else none
  else if nbits = 1 then
    if w < 2 then some (.irq (BitVec.ofNat 1 w)) else none
  else if nbits = 36 ∨ nbits = 40 then
    if w < 2 ^ 36 then some (.command (BitVec.ofNat 36 w)) else none
  else if nbits = 4 then
    if w < 16 then some (.event (BitVec.ofNat 4 w)) else none
  else none

/-- The instruction the decoder reads from a row's bits, numbered as spec/opcode_table.json numbers them. -/
def decodeTableWord (nbits w : Nat) : Option Instr :=
  match stepWordOfTable nbits w with
  | none => none
  | some sw =>
    match decode sw with
    | .ok i => some i
    | .error _ => none

end Sys2Proof
end

