-- ==== Sys2Proof/Machine/State.lean ====
section
/-! DEFINITION. The state of the block (spec/10_state.md), its reset value (R36), and the reasons a step can stop (R166). -/

namespace Sys2Proof.Machine

/-- `PHASE`: the 17 legal values, in the order of R62. A reserved code 17 to 31 cannot be held (R18, R73). -/
inductive Phase where
  | selx | rdx | sely | rdy | dzx | dzy | cmap | lvlx | drvx | lvly | drvy
  | clr | brd | mrk | fls | slpe | slpw
deriving DecidableEq, Repr

/-- `BORDER`: a three-valued enumeration, none = 0, thin = 1, full = 2; the code 3 cannot be held (R13, R73). -/
inductive Border where
  | none | thin | full
deriving DecidableEq, Repr

/-- A button line: index 0 is Button A, index 1 the joystick button (R26, R63). -/
inductive Line where
  | buttonA | joystick
deriving DecidableEq, Repr

/-- One bit for each button line (R26, R27). -/
structure Lines where
  /-- Line 0, Button A. -/
  a : Bool
  /-- Line 1, the joystick button. -/
  j : Bool
deriving DecidableEq, Repr

/-- An image of 128 × 64 one-bit pixels (R31, R33): 64 rows from the top, and in a row bit `x` is column `x`.
Every value of this type is canonical: images with the same pixels are the same data (`Image.ext_pixel`). -/
structure Image where
  rows : Vector (BitVec 128) 64
deriving DecidableEq, Repr

/-- A framebuffer command as the composer presents it (R64, R141), its fields as integers. -/
inductive FbCmd where
  | clear
  | rect (fill : Bool) (x y : Int) (w h : Nat)
  | flush
deriving DecidableEq, Repr

/-- An output write `OutWrite(ch, v)` (R43): the channel and the value. -/
inductive OutWrite where
  | pwmX (v : Level)
  | pwmY (v : Level)
  | green (b : Bool)
deriving DecidableEq, Repr

/-- What the block does at the converter (R38): it selects a channel, or reads a sample of the selected channel. -/
inductive AdcAccess where
  | select (c : Channel)
  | read (c : Channel) (v : Sample)
deriving DecidableEq, Repr

/-- The state: every register of R10 to R33, the records R38 and R43 ask for, and the environment's inputs. -/
structure State where
  /-- `LED_EN`, 1 is on (R11). -/
  ledEn : Bool
  /-- `GREEN`, 1 is on (R12). -/
  green : Bool
  /-- `BORDER` (R13). -/
  border : Border
  /-- `LAST`, the time of the last accepted trigger of either button (R14). -/
  last : Time
  /-- `PWM_X` (R15). -/
  pwmX : Level
  /-- `PWM_Y` (R16). -/
  pwmY : Level
  /-- `GREEN_OUT` (R17). -/
  greenOut : Bool
  /-- `PHASE` (R18). -/
  phase : Phase
  /-- `ADC_SEL` (R19). -/
  adcSel : Channel
  /-- `RAW_X` (R20). -/
  rawX : Sample
  /-- `RAW_Y` (R20). -/
  rawY : Sample
  /-- `DX` (R21). -/
  dx : Deflection
  /-- `DY` (R21). -/
  dy : Deflection
  /-- `CEN_X` (R22). -/
  cenX : Bool
  /-- `CEN_Y` (R22). -/
  cenY : Bool
  /-- `CUR_X`, two's complement (R23). -/
  curX : Cursor
  /-- `CUR_Y`, two's complement (R23). -/
  curY : Cursor
  /-- `LVL_X` (R24). -/
  lvlX : Level
  /-- `LVL_Y` (R24). -/
  lvlY : Level
  /-- `SLP_T0` (R25). -/
  slpT0 : Time
  /-- `BTN_PREV[0..1]`, 1 is released (R26). -/
  btnPrev : Lines
  /-- `IRQ_PEND[0..1]` (R27). -/
  irqPend : Lines
  /-- `TIME_MS` (R28). -/
  timeMs : Time
  /-- `FB`, the off-screen buffer (R31). -/
  fb : Image
  /-- `FB_HDR`, the reserved header bytes of the buffer (R32). -/
  fbHdr : List Byte
  /-- `DISP`, the image the display shows (R33). -/
  disp : Image
  /-- `FRAMES`, every image flushed since reset, oldest first (R33). -/
  frames : List Image
  /-- The output writes since reset, oldest first (R38, R43). -/
  outLog : List OutWrite
  /-- The converter accesses since reset, oldest first (R38). -/
  adcLog : List AdcAccess
  /-- The environment's choice of the next steps, first one first: the rest of the trace (R70). Log entry 1. -/
  trace : List StepWord
  /-- The environment's answers to the next analog reads, first one first (R30, R70). Log entry 6. -/
  draws : List Sample
  /-- The model's own counter: which free value comes next. Log entry 6. -/
  freeCount : Nat
  /-- The parameters the machine is run under (R5, R34): configuration, written by no step. Log entry 9. -/
  params : Params
deriving DecidableEq, Repr

/-- The image with every pixel dark. -/
def Image.allDark : Image := ⟨Vector.replicate 64 0#128⟩

/-- The block right after reset under a configuration (R36, R190). The values the spec gives are `LED_EN` to `GREEN_OUT`,
`PHASE`, the interrupt front end, `TIME_MS` and `FRAMES`; for the registers R36 leaves unspecified the value is the
model's choice (log entries 3, 4 and 5). Nothing is scheduled. -/
def State.resetWith (p : Params) : State where
  ledEn := true
  green := false
  border := .none
  last := 0#32
  pwmX := 0#12
  pwmY := 0#12
  greenOut := false
  phase := .selx
  adcSel := p.chX
  rawX := 0#12
  rawY := 0#12
  dx := 0#12
  dy := 0#12
  cenX := false
  cenY := false
  curX := 0#8
  curY := 0#8
  lvlX := 0#12
  lvlY := 0#12
  slpT0 := 0#32
  btnPrev := ⟨true, true⟩
  irqPend := ⟨false, false⟩
  timeMs := 0#32
  fb := Image.allDark
  fbHdr := List.replicate p.fbHdrLen 0#8
  disp := Image.allDark
  frames := []
  outLog := []
  adcLog := []
  trace := []
  draws := []
  freeCount := 0
  params := p

/-- The block right after reset, under the default configuration. -/
def State.reset : State := State.resetWith Params.default

/-- A fault. The block raises no exception (R165); the one fault a model may report is R166's (a). -/
inductive Fault where
  /-- A read of a register that holds no value (R37, R166 a). No operation raises it: in this model every register
  holds a value from reset on (log entry 3, unsafe for a claim about a value nothing has written). -/
  | unwrittenRegister
deriving DecidableEq, Repr

/-- A refusal. None is a hardware event (R166 b). -/
inductive Refusal where
  /-- Raised by an arm of `exec` whose instruction has no meaning yet: safe. No arm is left so. -/
  | notModelled (mnemonic : String)
  /-- Raised by `step` on a step word with a reserved code or a stray bit (R73, U8): safe. -/
  | invalidWord (why : DecodeError)
  /-- Raised by a foreground operation that `PHASE` does not select (R70, U16): safe. -/
  | otherPhase
  /-- Raised by a foreground operation, a framebuffer command, `TICK` and `INPUT` while an interrupt is pending, when
  they are not enabled (R158, U16, U17): safe. -/
  | interruptPending
  /-- Raised by a handler step whose `IRQ_PEND` bit is clear (R70, R83, U16): safe. -/
  | lineNotPending
  /-- Raised by `SLPW` before 100 ms have passed, when it is not enabled (R153, U16, U17): safe. -/
  | sleepNotOver
  /-- Raised by `step` under a configuration no model takes: equal channels, or a marker origin outside the range of
  R68 (R41, R68, R116, R166 b): safe. -/
  | configuration
deriving DecidableEq, Repr

end Sys2Proof.Machine
end

