-- ==== Sys2Proof/Machine/Operands.lean ====
section
/-! DEFINITION. The implicit operands and value computations of the operations (R68): deflection, level, cursor,
elapsed time, and the commands the composer issues. -/

namespace Sys2Proof.Machine

/-- `|2048 − s|`, exact (R104, R105). -/
def deflectionOf (s : Sample) : Nat :=
  ((Config.center : Int) - s.toNat).natAbs

/-- The deflection as the 12-bit register holds it: 0 to 2048 fits (R21). -/
def deflection (s : Sample) : Deflection :=
  BitVec.ofNat 12 (deflectionOf s)

/-- A computed level as the 12-bit register holds it. Outside 0..4095 no rule states the value (R6, R116, U3): a free
value, reached only from states no run reaches. Log entry 8. -/
def narrowLevel (v : Int) : Level :=
  if 0 ≤ v ∧ v ≤ Config.pwmWrap then BitVec.ofInt 12 v else Config.levelOutside v

/-- The level from the enable bit, the centred flag and the deflection register (R111, R113). -/
def levelOf (en cen : Bool) (d : Deflection) : Level :=
  if en = false then 0#12
  else if cen = true then 0#12
  else narrowLevel (((d.toNat : Int) - Config.dzRadius) * Config.gain)

/-- `px` of R121: multiply, then divide. -/
def cursorPx (raw : Sample) : Nat :=
  raw.toNat * (Config.dispW - Config.marker) / Config.adcMax

/-- `py` of R121: the Y axis is inverted after the division. -/
def cursorPy (raw : Sample) : Int :=
  ((Config.dispH - Config.marker : Nat) : Int) - (raw.toNat * (Config.dispH - Config.marker) / Config.adcMax : Nat)

/-- `CUR_X` of R121, re-centred. -/
def cursorX (raw : Sample) : Cursor :=
  BitVec.ofInt 8 ((cursorPx raw : Int) - (Config.dispW / 2 - 4 : Nat))

/-- `CUR_Y` of R121, re-centred. -/
def cursorY (raw : Sample) : Cursor :=
  BitVec.ofInt 8 (cursorPy raw - (Config.dispH / 2 - 4 : Nat))

/-- `(now − since) mod 2^32` (R83, R153). -/
def elapsed (now since : Time) : Nat :=
  (now - since).toNat

/-- The gate of R83: strictly more than 200 ms since the last accepted trigger of either button. -/
def accepts (s : State) : Bool :=
  decide (elapsed s.timeMs s.last > Config.debounceMs)

/-- The enabling condition of `SLPW`: at least 100 ms since the sleep began (R153). -/
def sleepOver (s : State) : Bool :=
  decide (elapsed s.timeMs s.slpT0 ≥ Config.sleepMs)

/-- A coordinate as the 9-bit two's complement command field holds it (R64, R68). -/
def sext9 (v : Int) : Int :=
  (BitVec.ofInt 9 v).toInt

/-- The command the border of R132 needs: none, the thin outline inside a 2-pixel margin, the outline at the edges. -/
def borderCommands (b : Border) : List FbCmd :=
  match b with
  | .none => []
  | .thin => [.rect false Config.thinMargin Config.thinMargin
      (Config.dispW - 2 * Config.thinMargin) (Config.dispH - 2 * Config.thinMargin)]
  | .full => [.rect false 0 0 Config.dispW Config.dispH]

/-- The command that draws the marker for an origin and a cursor position (R123, R133). -/
def markerCommand (originX originY : Int) (cx cy : Cursor) : FbCmd :=
  .rect true (sext9 (originX + cx.toInt)) (sext9 (originY + cy.toInt)) Config.marker Config.marker

end Sys2Proof.Machine
end

