-- ==== Sys2Proof/Machine/Flags.lean ====
section
/-! DEFINITION. The two status flags of the block, `CEN_X` and `CEN_Y` (R22, R104, R105): one computation serves both. -/

namespace Sys2Proof.Machine

/-- The axis is centred when the deflection is at most the dead-zone radius, the boundary included (R104, R105). -/
def centred (s : Sample) : Bool :=
  decide (deflectionOf s ≤ Config.dzRadius)

end Sys2Proof.Machine
end

