-- ==== Sys2Proof/Machine/Pixels.lean ====
section
/-! DEFINITION. The framebuffer pixel space: reading, lighting, clearing and drawing pixels (R31, R44, R137 to R139). -/

namespace Sys2Proof.Machine

/-- Pixel `(x, y)` of an image; a position outside 0..127 by 0..63 does not exist and reads as dark (R44). -/
def Image.pixel (img : Image) (x y : Nat) : Bool :=
  if h : y < 64 then img.rows[y].getLsbD x else false

/-- `FB[x][y] <- 1` for a pixel that exists. -/
def Image.setPixel (img : Image) (x y : Nat) : Image :=
  if h : y < 64 then ⟨img.rows.set y (img.rows[y] ||| BitVec.twoPow 128 x)⟩ else img

/-- Does position `(px, py)` exist (R44)? -/
def inBuffer (px py : Int) : Bool :=
  decide (0 ≤ px) && decide (px ≤ 127) && decide (0 ≤ py) && decide (py ≤ 63)

/-- Light one position; a position outside the buffer is discarded, without wrap and without fault (R139). -/
def Image.light (img : Image) (px py : Int) : Image :=
  if inBuffer px py then img.setPixel px.toNat py.toNat else img

/-- The edge test of R138 on the unclipped rectangle. -/
def onEdge (x y : Int) (w h : Nat) (px py : Int) : Bool :=
  decide (px = x) || decide (px = x + w - 1) || decide (py = y) || decide (py = y + h - 1)

/-- The inner loop of R138: the first `n` rows of column `px`. -/
def drawRows (fill : Bool) (x y : Int) (w h : Nat) (px : Int) : Nat → Image → Image
  | 0, img => img
  | n + 1, img =>
    let img' := drawRows fill x y w h px n img
    if fill || onEdge x y w h px (y + n) then img'.light px (y + n) else img'

/-- The outer loop of R138: the first `n` columns. -/
def drawColumns (fill : Bool) (x y : Int) (w h : Nat) : Nat → Image → Image
  | 0, img => img
  | n + 1, img => drawRows fill x y w h (x + n) h (drawColumns fill x y w h n img)

/-- `FbRect(x, y, w, h, fill)` (R138, R139): it lights pixels and never clears one. -/
def fbRect (fill : Bool) (x y : Int) (w h : Nat) (img : Image) : Image :=
  drawColumns fill x y w h w img

/-- `FbClear()` on the pixels (R137). -/
def fbClear : Image := ⟨Vector.replicate 64 0#128⟩

end Sys2Proof.Machine
end

