-- ==== Sys2Proof/Machine/Ops.lean ====
section
/-! DEFINITION. The shared operations: phase advance and the enabling of steps, the converter, the output channels,
the framebuffer commands, and taking and leaving an interrupt. -/

namespace Sys2Proof.Machine

/-- What a meaning answers. -/
abbrev Result := Host.Outcome State Fault Refusal

/-- The code of a phase (R62). -/
def Phase.code (p : Phase) : BitVec 5 :=
  match p with
  | .selx => 0#5
  | .rdx => 1#5
  | .sely => 2#5
  | .rdy => 3#5
  | .dzx => 4#5
  | .dzy => 5#5
  | .cmap => 6#5
  | .lvlx => 7#5
  | .drvx => 8#5
  | .lvly => 9#5
  | .drvy => 10#5
  | .clr => 11#5
  | .brd => 12#5
  | .mrk => 13#5
  | .fls => 14#5
  | .slpe => 15#5
  | .slpw => 16#5

/-- The phase a code selects; 17 to 31 select none (R62, R73). -/
def Phase.ofCode (op : BitVec 5) : Option Phase :=
  match op.toNat with
  | 0 => some .selx
  | 1 => some .rdx
  | 2 => some .sely
  | 3 => some .rdy
  | 4 => some .dzx
  | 5 => some .dzy
  | 6 => some .cmap
  | 7 => some .lvlx
  | 8 => some .drvx
  | 9 => some .lvly
  | 10 => some .drvy
  | 11 => some .clr
  | 12 => some .brd
  | 13 => some .mrk
  | 14 => some .fls
  | 15 => some .slpe
  | 16 => some .slpw
  | _ => none

/-- `PHASE <- PHASE + 1`, and from `SLPW` back to 0 (R18, R151). -/
def Phase.next (p : Phase) : Phase :=
  match p with
  | .selx => .rdx
  | .rdx => .sely
  | .sely => .rdy
  | .rdy => .dzx
  | .dzx => .dzy
  | .dzy => .cmap
  | .cmap => .lvlx
  | .lvlx => .drvx
  | .drvx => .lvly
  | .lvly => .drvy
  | .drvy => .clr
  | .clr => .brd
  | .brd => .mrk
  | .mrk => .fls
  | .fls => .slpe
  | .slpe => .slpw
  | .slpw => .selx

/-- The number of a border style (R13, R66). -/
def Border.code (b : Border) : Nat :=
  match b with
  | .none => 0
  | .thin => 1
  | .full => 2

/-- `(BORDER + 1) mod 3` (R85). -/
def Border.next (b : Border) : Border :=
  match b with
  | .none => .thin
  | .thin => .full
  | .full => .none

/-- The bit of one line. -/
def Lines.get (ls : Lines) (l : Line) : Bool :=
  match l with
  | .buttonA => ls.a
  | .joystick => ls.j

/-- Write the bit of one line. -/
def Lines.set (ls : Lines) (l : Line) (b : Bool) : Lines :=
  match l with
  | .buttonA => { ls with a := b }
  | .joystick => { ls with j := b }

/-- Is some interrupt pending, `IRQ_PEND ≠ (0, 0)` (R158)? -/
def State.pending (s : State) : Bool :=
  s.irqPend.a || s.irqPend.j

/-! ## Phase advance and the enabling of steps -/

/-- The phase write that ends every foreground operation (R151). -/
def State.advance (s : State) (p : Phase) : State :=
  { s with phase := p.next }

/-- A foreground step of operation `p`: not enabled while an interrupt is pending (R150, R158), and it must be the
operation `PHASE` selects (R70, U16). -/
def whenSelected (p : Phase) (s : State) (r : Result) : Result :=
  if s.pending then .refused .interruptPending
  else if s.phase = p then r
  else .refused .otherPhase

/-- A foreground operation with no condition of its own: its effect, then the phase advance. All its reads see the
state at the start of the step (R7). -/
def foreground (p : Phase) (effect : State → State) (s : State) : Result :=
  whenSelected p s (.next ((effect s).advance p))

/-- A step that is enabled exactly when no interrupt is pending (R158). -/
def whenQuiet (s : State) (r : Result) : Result :=
  if s.pending then .refused .interruptPending else r

/-! ## The converter -/

/-- `ADC_SEL <- c`; the selection is recorded (R38, R100, R102). -/
def State.adcSelect (s : State) (c : Channel) : State :=
  { s with adcSel := c, adcLog := s.adcLog ++ [.select c] }

/-- `AdcRead(ADC_SEL)`: the environment's answer, the next queued sample or else a free value (R30, R42). -/
def State.adcSample (s : State) : Sample :=
  match s.draws with
  | v :: _ => v
  | [] => Config.adcDraw s.freeCount

/-- What a read leaves: the sample is used up and the read is recorded (R38, R42). -/
def State.adcDone (s : State) : State :=
  { s with
    draws := s.draws.tail
    freeCount := s.freeCount + 1
    adcLog := s.adcLog ++ [.read s.adcSel s.adcSample] }

/-! ## The output channels -/

/-- `OutWrite(ch, v)`: the channel's register takes the value at once and the write is recorded (R43). -/
def State.outWrite (s : State) (w : OutWrite) : State :=
  match w with
  | .pwmX v => { s with pwmX := v, outLog := s.outLog ++ [w] }
  | .pwmY v => { s with pwmY := v, outLog := s.outLog ++ [w] }
  | .green b => { s with greenOut := b, outLog := s.outLog ++ [w] }

/-- The number of an output channel (R66). -/
def OutWrite.channel (w : OutWrite) : BitVec 2 :=
  match w with
  | .pwmX _ => 0#2
  | .pwmY _ => 1#2
  | .green _ => 2#2

/-! ## The framebuffer -/

/-- The framebuffer carries out one command completely (R137, R138, R140, R141). The header `FB_HDR` is written by
none of them; `FLUSH` replaces all of `DISP`, the display at bus address 0x3C, and appends to `FRAMES`. -/
def State.runCommand (s : State) (c : FbCmd) : State :=
  match c with
  | .clear => { s with fb := fbClear }
  | .rect fill x y w h => { s with fb := fbRect fill x y w h s.fb }
  | .flush => { s with disp := s.fb, frames := s.frames ++ [s.fb] }

/-- The commands a composer operation issues, one after the other (R130, R141). -/
def State.issue (s : State) (cs : List FbCmd) : State :=
  cs.foldl State.runCommand s

/-! ## Interrupts -/

/-- Interrupt entry for a line (R168, R172): the pending bit is cleared; nothing is saved and no mode changes. -/
def State.interruptEntry (s : State) (l : Line) : State :=
  { s with irqPend := s.irqPend.set l false }

/-- Interrupt return (R173): there is no return operation and nothing to restore. -/
def State.interruptReturn (s : State) : State := s

/-- Taking an interrupt: one atomic handler step for a pending line (R82, R172 to R174). -/
def takeInterrupt (l : Line) (handler : State → State) (s : State) : Result :=
  if s.irqPend.get l then .next (handler (s.interruptEntry l)).interruptReturn
  else .refused .lineNotPending

/-- The interval gate of R83 around the body of an arm: an accepted trigger runs the body and sets `LAST`; a dropped
press does neither. -/
def gated (flip : State → State) (s : State) : State :=
  if accepts s then { flip s with last := s.timeMs } else s

/-- The edge detector of R80: both lines at once, a level 1 that becomes 0 sets the pending bit. -/
def State.sampleLines (s : State) (a j : Bool) : State :=
  { s with
    irqPend := ⟨s.irqPend.a || (s.btnPrev.a && !a), s.irqPend.j || (s.btnPrev.j && !j)⟩
    btnPrev := ⟨a, j⟩ }

end Sys2Proof.Machine
end

