-- ==== Sys2Proof/Machine/Brightness.lean ====
section
/-! DEFINITION. The brightness scaler: `LVLX`, `DRVX`, `LVLY`, `DRVY` (R111 to R114). -/

namespace Sys2Proof.Machine

/-- `LVLX` (R111): the enable bit is the one at this step. -/
def execLvlx (s : State) : Result :=
  foreground .lvlx (fun s => { s with lvlX := levelOf s.ledEn s.cenX s.dx }) s

/-- `DRVX` (R112): the level is written in every frame, a zero too. -/
def execDrvx (s : State) : Result :=
  foreground .drvx (fun s => s.outWrite (.pwmX s.lvlX)) s

/-- `LVLY` (R113): the enable bit is read again. -/
def execLvly (s : State) : Result :=
  foreground .lvly (fun s => { s with lvlY := levelOf s.ledEn s.cenY s.dy }) s

/-- `DRVY` (R114). -/
def execDrvy (s : State) : Result :=
  foreground .drvy (fun s => s.outWrite (.pwmY s.lvlY)) s

end Sys2Proof.Machine
end

