-- ==== Sys2Proof/Machine/Composer.lean ====
section
/-! DEFINITION. The display composer: `CLR`, `BRD`, `MRK`, `FLS` (R130 to R134). Each issues its commands and they are
carried out within the same step. -/

namespace Sys2Proof.Machine

/-- `CLR` (R131). -/
def execClr (s : State) : Result :=
  foreground .clr (fun s => s.issue [.clear]) s

/-- `BRD` (R132): no command, or one outline. -/
def execBrd (s : State) : Result :=
  foreground .brd (fun s => s.issue (borderCommands s.border)) s

/-- `MRK` (R133): the filled square at the configured origin plus the cursor position (R123). -/
def execMrk (s : State) : Result :=
  foreground .mrk (fun s => s.issue [markerCommand s.params.ox s.params.oy s.curX s.curY]) s

/-- `FLS` (R134). -/
def execFls (s : State) : Result :=
  foreground .fls (fun s => s.issue [.flush]) s

end Sys2Proof.Machine
end

