-- ==== Sys2Proof/Machine/Cursor.lean ====
section
/-! DEFINITION. The cursor mapper: `CMAP` (R121). -/

namespace Sys2Proof.Machine

/-- `CMAP` (R121). -/
def execCmap (s : State) : Result :=
  foreground .cmap (fun s => { s with curX := cursorX s.rawX, curY := cursorY s.rawY }) s

end Sys2Proof.Machine
end

