-- ==== Sys2Proof/Machine/DeadZone.lean ====
section
/-! DEFINITION. The dead-zone mapper: `DZX`, `DZY` (R104, R105). -/

namespace Sys2Proof.Machine

/-- `DZX` (R104). -/
def execDzx (s : State) : Result :=
  foreground .dzx (fun s => { s with dx := deflection s.rawX, cenX := centred s.rawX }) s

/-- `DZY` (R105). -/
def execDzy (s : State) : Result :=
  foreground .dzy (fun s => { s with dy := deflection s.rawY, cenY := centred s.rawY }) s

end Sys2Proof.Machine
end

