-- ==== Sys2Proof/Machine/Environment.lean ====
section
/-! DEFINITION. The environment's events: `TICK`, `INPUT`, `RESET` (R155 to R157, R80, R190, R191). -/

namespace Sys2Proof.Machine

/-- `TICK` (R155): one millisecond, modulo 2^32. -/
def execTick (s : State) : Result :=
  whenQuiet s (.next { s with timeMs := s.timeMs + 1#32 })

/-- `INPUT(a, j)` (R80, R156). -/
def execInput (a j : Bool) (s : State) : Result :=
  whenQuiet s (.next (s.sampleLines a j))

/-- The state `RESET` leaves (R190, R191): every register at its reset value, nothing of the block kept. What the
environment will do next and the configuration are not the block's state and stay (log entry 15). -/
def State.afterReset (s : State) : State :=
  { State.resetWith s.params with trace := s.trace, draws := s.draws, freeCount := s.freeCount }

/-- `RESET` (R157, R190): enabled in every state. -/
def execReset (s : State) : Result :=
  .next s.afterReset

end Sys2Proof.Machine
end

