-- ==== Sys2Proof/Machine/Framebuffer.lean ====
section
/-! DEFINITION. The framebuffer primitives as steps of their own: `CLEAR`, `RECT`, `FLUSH` (R137, R138, R140). Only the
foreground presents commands, so one is carried out only while no interrupt is pending (R141, R158; log entry 11). -/

namespace Sys2Proof.Machine

/-- `CLEAR` (R137). -/
def execClear (s : State) : Result :=
  whenQuiet s (.next (s.runCommand .clear))

/-- `RECT` (R138, R139). -/
def execRect (fill : Bool) (x y : Int) (w h : Nat) (s : State) : Result :=
  whenQuiet s (.next (s.runCommand (.rect fill x y w h)))

/-- `FLUSH` (R140). -/
def execFlush (s : State) : Result :=
  whenQuiet s (.next (s.runCommand .flush))

end Sys2Proof.Machine
end

