-- ==== Sys2Proof/Machine/Handler.lean ====
section
/-! DEFINITION. The button handler's two arms: `IRQ_A`, `IRQ_J` (R82 to R86). -/

namespace Sys2Proof.Machine

/-- `Flip(0)` of R84: Button A flips `LED_EN`; when it turns off, both brightness outputs go to zero at once. -/
def flipLedEn (s : State) : State :=
  let s' := { s with ledEn := !s.ledEn }
  if s'.ledEn = false then (s'.outWrite (.pwmX 0#12)).outWrite (.pwmY 0#12) else s'

/-- `Flip(1)` of R85: the joystick button flips `GREEN`, writes it to the green output and advances `BORDER`. -/
def flipGreen (s : State) : State :=
  ({ s with green := !s.green, border := s.border.next }).outWrite (.green (!s.green))

/-- `IRQ_A` (R84). -/
def execIrqA (s : State) : Result :=
  takeInterrupt .buttonA (gated flipLedEn) s

/-- `IRQ_J` (R85). -/
def execIrqJ (s : State) : Result :=
  takeInterrupt .joystick (gated flipGreen) s

end Sys2Proof.Machine
end

