-- ==== Sys2Proof/Machine/Sampler.lean ====
section
/-! DEFINITION. The axis sampler: `SELX`, `RDX`, `SELY`, `RDY` (R100 to R103, R107). -/

namespace Sys2Proof.Machine

/-- `SELX` (R100). -/
def execSelx (s : State) : Result :=
  foreground .selx (fun s => s.adcSelect s.params.chX) s

/-- `RDX` (R101). -/
def execRdx (s : State) : Result :=
  foreground .rdx (fun s => { s.adcDone with rawX := s.adcSample }) s

/-- `SELY` (R102). -/
def execSely (s : State) : Result :=
  foreground .sely (fun s => s.adcSelect s.params.chY) s

/-- `RDY` (R103). -/
def execRdy (s : State) : Result :=
  foreground .rdy (fun s => { s.adcDone with rawY := s.adcSample }) s

end Sys2Proof.Machine
end

