-- ==== Sys2Proof/Machine/Sleep.lean ====
section
/-! DEFINITION. The sleep of a frame: `SLPE`, `SLPW` (R152, R153). -/

namespace Sys2Proof.Machine

/-- `SLPE` (R152). -/
def execSlpe (s : State) : Result :=
  foreground .slpe (fun s => { s with slpT0 := s.timeMs }) s

/-- `SLPW` (R153): not enabled until 100 ms have passed since `SLPE`; then the frame starts again. -/
def execSlpw (s : State) : Result :=
  whenSelected .slpw s (if sleepOver s then .next (s.advance .slpw) else .refused .sleepNotOver)

end Sys2Proof.Machine
end

