-- ==== Sys2Proof/Machine/Dispatch.lean ====
section
/-! DEFINITION. The one dispatch: an arm for each instruction. -/

namespace Sys2Proof.Machine

/-- The meaning of an instruction at a state. -/
def exec (i : Instr) (s : State) : Host.Outcome State Fault Refusal :=
  match i with
  | .selx => Sys2Proof.Machine.execSelx s
  | .rdx => Sys2Proof.Machine.execRdx s
  | .sely => Sys2Proof.Machine.execSely s
  | .rdy => Sys2Proof.Machine.execRdy s
  | .dzx => Sys2Proof.Machine.execDzx s
  | .dzy => Sys2Proof.Machine.execDzy s
  | .cmap => Sys2Proof.Machine.execCmap s
  | .lvlx => Sys2Proof.Machine.execLvlx s
  | .drvx => Sys2Proof.Machine.execDrvx s
  | .lvly => Sys2Proof.Machine.execLvly s
  | .drvy => Sys2Proof.Machine.execDrvy s
  | .clr => Sys2Proof.Machine.execClr s
  | .brd => Sys2Proof.Machine.execBrd s
  | .mrk => Sys2Proof.Machine.execMrk s
  | .fls => Sys2Proof.Machine.execFls s
  | .slpe => Sys2Proof.Machine.execSlpe s
  | .slpw => Sys2Proof.Machine.execSlpw s
  | .irqA => Sys2Proof.Machine.execIrqA s
  | .irqJ => Sys2Proof.Machine.execIrqJ s
  | .clear => Sys2Proof.Machine.execClear s
  | .rect fill x y w h => Sys2Proof.Machine.execRect fill x y w h s
  | .flush => Sys2Proof.Machine.execFlush s
  | .tick => Sys2Proof.Machine.execTick s
  | .input a j => Sys2Proof.Machine.execInput a j s
  | .reset => Sys2Proof.Machine.execReset s

end Sys2Proof.Machine
end

