-- ==== Sys2Proof/Machine/Fetch.lean ====
section
/-! DEFINITION. Where the next step comes from: the environment's trace, and, when it presents nothing, the
free-running block (R8, R70, R150, R158; log entries 1 and 2). -/

namespace Sys2Proof.Machine

/-- The step the free-running block takes (R158): a pending line's handler step first, either one when both are pending
(R170, a free value); else the operation `PHASE` selects; and while the sleep holds it, a millisecond passes. -/
def State.freeWord (s : State) : StepWord :=
  match s.irqPend.a, s.irqPend.j with
  | true, true => .irq (BitVec.ofBool (Config.irqOrder s.freeCount))
  | true, false => .irq 0#1
  | false, true => .irq 1#1
  | false, false =>
    if s.phase = .slpw ∧ sleepOver s = false then .event 0#4 else .phase s.phase.code

/-- The next step word. -/
def State.nextWord (s : State) : StepWord :=
  match s.trace with
  | w :: _ => w
  | [] => s.freeWord

/-- The state in which the fetched step runs: a trace word is used up, or the free-value counter moves on. -/
def State.fetched (s : State) : State :=
  match s.trace with
  | _ :: ws => { s with trace := ws }
  | [] => { s with freeCount := s.freeCount + 1 }

/-- Make the word's step the one that is enabled (R150, R153, R158): a foreground step is selected by `PHASE`, with no
interrupt pending and its sleep over; a handler step has its line pending; a command, `TICK` and `INPUT` have no
interrupt pending. Log entry 1. -/
def State.readyFor (s : State) (w : StepWord) : State :=
  match w with
  | .phase op =>
    match Phase.ofCode op with
    | some p =>
      { s with
        phase := p
        irqPend := ⟨false, false⟩
        slpT0 := if p = .slpw ∧ sleepOver s = false then s.timeMs - 100#32 else s.slpT0 }
    | none => s
  | .irq line =>
    { s with irqPend := s.irqPend.set (if line = 0#1 then .buttonA else .joystick) true }
  | .command _ => { s with irqPend := ⟨false, false⟩ }
  | .event ev => if ev = 0b1000#4 then s else { s with irqPend := ⟨false, false⟩ }

/-- `w` stands first in the environment's trace, and its step is enabled. -/
def State.present (s : State) (w : StepWord) : State :=
  { s.readyFor w with trace := w :: s.trace }

end Sys2Proof.Machine
end

