-- ==== Sys2Proof/Machine/Step.lean ====
section
/-! DEFINITION. One step: fetch the next step word, decode it by its kind, run it. -/

namespace Sys2Proof.Machine

/-- One step of whichever agent moves next (R8). A configuration no model takes is refused, and no step is taken (R166). -/
def step (s : State) : Host.Outcome State Fault Refusal :=
  if s.params.accepted then
    match decode s.nextWord with
    | .ok i => exec i s.fetched
    | .error e => .refused (.invalidWord e)
  else .refused .configuration

/-- The state whose very next step is the opcode-table row's word; a number that is no word leaves the state as it is. -/
def State.withFetchWord (s : State) (nbits w : Nat) : State :=
  match stepWordOfTable nbits w with
  | some sw => s.present sw
  | none => s

end Sys2Proof.Machine
end

