-- ==== Sys2Proof/Machine/Trace.lean ====
section
/-! DEFINITION. The pseudo-operations of a trace, each an abbreviation for a sequence of trace lines (R70, R71). -/

namespace Sys2Proof.Machine

/-- A pseudo-operation (R71). -/
inductive Macro where
  /-- `TICK n`. -/
  | ticks (n : Nat)
  /-- `PRESS A` or `PRESS J`: the line goes low, the other keeps its level. -/
  | press (l : Line)
  /-- `RELEASE A` or `RELEASE J`: the line goes high, the other keeps its level. -/
  | release (l : Line)
  /-- `WORK x y`: the 15 working operations of a frame, with the draws of its two reads. -/
  | work (x y : Sample)
  /-- `SLEEP`: `SLPE`, 100 ticks, `SLPW`. -/
  | sleep
  /-- `FRAME x y`: `WORK x y`, then `SLEEP`. -/
  | frame (x y : Sample)
deriving DecidableEq, Repr

/-- `INPUT` with one line's level given and the other's kept (R71). -/
def inputLine (l : Line) (level : Bool) (prev : Lines) : Instr :=
  match l with
  | .buttonA => .input level prev.j
  | .joystick => .input prev.a level

/-- The lines of `WORK` (R71), in the order of R62. -/
def workLines : List Instr :=
  [.selx, .rdx, .sely, .rdy, .dzx, .dzy, .cmap, .lvlx, .drvx, .lvly, .drvy, .clr, .brd, .mrk, .fls]

/-- The lines of `SLEEP` (R71). -/
def sleepLines : List Instr :=
  .slpe :: (List.replicate 100 .tick ++ [.slpw])

/-- The trace lines a pseudo-operation stands for, `prev` being the levels `BTN_PREV` holds when it is reached (R71). -/
def Macro.lines (m : Macro) (prev : Lines) : List Instr :=
  match m with
  | .ticks n => List.replicate n .tick
  | .press l => [inputLine l false prev]
  | .release l => [inputLine l true prev]
  | .work _ _ => workLines
  | .sleep => sleepLines
  | .frame _ _ => workLines ++ sleepLines

/-- The draws that stand on its `RDX` and `RDY` lines (R70). -/
def Macro.draws (m : Macro) : List Sample :=
  match m with
  | .work x y => [x, y]
  | .frame x y => [x, y]
  | .ticks _ | .press _ | .release _ | .sleep => []

/-- The levels `BTN_PREV` holds after a step word: `INPUT` stores its levels, `RESET` the rest levels, no other step
writes them (R26, R46). -/
def levelsAfterWord (prev : Lines) (w : StepWord) : Lines :=
  match decode w with
  | .ok (.input a j) => ⟨a, j⟩
  | .ok .reset => ⟨true, true⟩
  | _ => prev

/-- The levels `BTN_PREV` holds when the words of a trace have been taken. -/
def levelsAfter (prev : Lines) (ws : List StepWord) : Lines :=
  ws.foldl levelsAfterWord prev

/-- Is the word a read of the converter, `RDX` or `RDY`? -/
def isRead (w : StepWord) : Bool :=
  match decode w with
  | .ok .rdx => true
  | .ok .rdy => true
  | _ => false

/-- The answers the reads of the waiting words get: the queued samples, and where the queue is too short the free
values these reads would have drawn (R70; log entry 6). -/
def State.waitingDraws (s : State) : List Sample :=
  (List.range (s.trace.countP isRead)).map fun k => (s.draws[k]?).getD (Config.adcDraw (s.freeCount + k))

/-- The environment presents the lines of a pseudo-operation after the words that wait already. `BTN_PREV` in R71 is the
current one, the levels it holds when the lines are reached, and the draws on their `RDX` and `RDY` lines (R70) are the
answers to these reads and to no read that waits before them. -/
def State.load (s : State) (m : Macro) : State :=
  { s with
    trace := s.trace ++ (m.lines (levelsAfter s.btnPrev s.trace)).map encode
    draws := s.waitingDraws ++ m.draws ++ s.draws.drop (s.trace.countP isRead) }

/-- A sequence of pseudo-operations, presented one behind the other. -/
def State.loadAll (s : State) (ms : List Macro) : State :=
  ms.foldl State.load s

end Sys2Proof.Machine
end

