-- ==== Sys2Proof/Safety.lean ====
section
/-! DEFINITION. What the claims are about: which steps are enabled, what a safe step is, the invariant of the block,
and the closed forms of the spec that the meanings are held against. -/

namespace Sys2Proof.Machine

/-- No interrupt is pending, `IRQ_PEND = (0, 0)` (R158). -/
def Quiet (s : State) : Prop := s.irqPend.a = false ∧ s.irqPend.j = false

/-- Step `i` is enabled in `s`, read from the scheduling rule and the operations' own conditions (R150, R153, R157,
R158), without a look at any meaning. -/
def Enabled (i : Instr) (s : State) : Prop :=
  match i with
  | .selx => Quiet s ∧ s.phase = .selx
  | .rdx => Quiet s ∧ s.phase = .rdx
  | .sely => Quiet s ∧ s.phase = .sely
  | .rdy => Quiet s ∧ s.phase = .rdy
  | .dzx => Quiet s ∧ s.phase = .dzx
  | .dzy => Quiet s ∧ s.phase = .dzy
  | .cmap => Quiet s ∧ s.phase = .cmap
  | .lvlx => Quiet s ∧ s.phase = .lvlx
  | .drvx => Quiet s ∧ s.phase = .drvx
  | .lvly => Quiet s ∧ s.phase = .lvly
  | .drvy => Quiet s ∧ s.phase = .drvy
  | .clr => Quiet s ∧ s.phase = .clr
  | .brd => Quiet s ∧ s.phase = .brd
  | .mrk => Quiet s ∧ s.phase = .mrk
  | .fls => Quiet s ∧ s.phase = .fls
  | .slpe => Quiet s ∧ s.phase = .slpe
  | .slpw => Quiet s ∧ s.phase = .slpw ∧ 100 ≤ (s.timeMs - s.slpT0).toNat
  | .irqA => s.irqPend.a = true
  | .irqJ => s.irqPend.j = true
  | .clear => Quiet s
  | .rect _ _ _ _ _ => Quiet s
  | .flush => Quiet s
  | .tick => Quiet s
  | .input _ _ => Quiet s
  | .reset => True

/-- A step that ends in a next state. -/
def Safe (s : State) : Prop := ∃ t, step s = .next t

/-- The operation a phase selects (R62, R150). -/
def Phase.instr (p : Phase) : Instr :=
  match p with
  | .selx => .selx
  | .rdx => .rdx
  | .sely => .sely
  | .rdy => .rdy
  | .dzx => .dzx
  | .dzy => .dzy
  | .cmap => .cmap
  | .lvlx => .lvlx
  | .drvx => .drvx
  | .lvly => .lvly
  | .drvy => .drvy
  | .clr => .clr
  | .brd => .brd
  | .mrk => .mrk
  | .fls => .fls
  | .slpe => .slpe
  | .slpw => .slpw

/-- The handler operation of a line (R63, R82). -/
def Line.instr (l : Line) : Instr :=
  match l with
  | .buttonA => .irqA
  | .joystick => .irqJ

/-- Is the instruction an operation of the foreground, format P (R9)? -/
def IsForeground (i : Instr) : Prop := ∃ p : Phase, i = p.instr

/-- The level function of R115, over exact numbers: an enable bit and a sample. -/
def specLevel (en : Bool) (raw : Nat) : Nat :=
  if en = false ∨ ((2048 : Int) - raw).natAbs ≤ 200 then 0 else (((2048 : Int) - raw).natAbs - 200) * 2

/-- `CUR_X` of R121, over exact numbers. -/
def specCurX (raw : Nat) : Int := ((raw * 120 / 4095 : Nat) : Int) - 60

/-- `CUR_Y` of R121, over exact numbers. -/
def specCurY (raw : Nat) : Int := 56 - ((raw * 56 / 4095 : Nat) : Int) - 28

/-- Clause (i) of R136: the pixels of the marker whose top-left pixel is at `(left, top)`. -/
def MarkerLit (left top x y : Int) : Prop :=
  left ≤ x ∧ x ≤ left + 7 ∧ top ≤ y ∧ y ≤ top + 7

/-- Clauses (ii) and (iii) of R136: the border's pixels. -/
def BorderLit (b : Border) (x y : Int) : Prop :=
  match b with
  | .none => False
  | .thin => 2 ≤ x ∧ x ≤ 125 ∧ 2 ≤ y ∧ y ≤ 61 ∧ (x = 2 ∨ x = 125 ∨ y = 2 ∨ y = 61)
  | .full => x = 0 ∨ x = 127 ∨ y = 0 ∨ y = 63

/-- The pixels `RECT` lights, clipping aside (R138). -/
def RectLit (fill : Bool) (x y : Int) (w h : Nat) (px py : Int) : Prop :=
  (x ≤ px ∧ px ≤ x + w - 1 ∧ y ≤ py ∧ py ≤ y + h - 1) ∧
    (fill = true ∨ px = x ∨ px = x + w - 1 ∨ py = y ∨ py = y + h - 1)

/-- A level the block ever writes: 0 or an even number up to 3696 (R15, R24). -/
def LegalLevel (v : Level) : Prop := v.toNat ≤ 3696 ∧ v.toNat % 2 = 0

/-- The last value written to the X brightness channel, 0 when none was (R43). -/
def lastPwmX (log : List OutWrite) : Level :=
  log.foldl (fun v w => match w with | .pwmX u => u | .pwmY _ => v | .green _ => v) 0#12

/-- The last value written to the Y brightness channel, 0 when none was (R43). -/
def lastPwmY (log : List OutWrite) : Level :=
  log.foldl (fun v w => match w with | .pwmX _ => v | .pwmY u => u | .green _ => v) 0#12

/-- The last value written to the green channel, 0 when none was (R43). -/
def lastGreen (log : List OutWrite) : Bool :=
  log.foldl (fun v w => match w with | .pwmX _ => v | .pwmY _ => v | .green u => u) false

/-- The invariant of the block: what the spec says of every state a run from reset reaches. -/
structure Inv (s : State) : Prop where
  /-- `GREEN_OUT = GREEN` (R17). -/
  green_mirrors : s.greenOut = s.green
  /-- The brightness outputs hold legal levels (R15, R16). -/
  pwm_legal : LegalLevel s.pwmX ∧ LegalLevel s.pwmY
  /-- So do the computed levels (R24). -/
  lvl_legal : LegalLevel s.lvlX ∧ LegalLevel s.lvlY
  /-- Deflections lie in 0 to 2048 (R21). -/
  deflection_range : s.dx.toNat ≤ 2048 ∧ s.dy.toNat ≤ 2048
  /-- Cursor positions lie in their ranges (R23). -/
  cursor_range : -60 ≤ s.curX.toInt ∧ s.curX.toInt ≤ 60 ∧ -28 ≤ s.curY.toInt ∧ s.curY.toInt ≤ 28
  /-- The converter is switched to an axis's channel when that axis is read (R42, R107). -/
  selected : (s.phase = .rdx → s.adcSel = s.params.chX) ∧ (s.phase = .rdy → s.adcSel = s.params.chY)
  /-- From `DZX` to the end of the frame `DX` and `CEN_X` are those of `RAW_X` (R104). -/
  mapped_x : 5 ≤ s.phase.code.toNat →
    s.dx.toNat = ((2048 : Int) - s.rawX.toNat).natAbs ∧ (s.cenX = true ↔ s.dx.toNat ≤ 200)
  /-- From `DZY` to the end of the frame `DY` and `CEN_Y` are those of `RAW_Y` (R105). -/
  mapped_y : 6 ≤ s.phase.code.toNat →
    s.dy.toNat = ((2048 : Int) - s.rawY.toNat).natAbs ∧ (s.cenY = true ↔ s.dy.toNat ≤ 200)
  /-- From `CMAP` to the end of the frame the cursor is that of the samples (R121). -/
  mapped_cursor : 7 ≤ s.phase.code.toNat →
    s.curX.toInt = specCurX s.rawX.toNat ∧ s.curY.toInt = specCurY s.rawY.toNat
  /-- An output holds the last value written to its channel (R43). -/
  outputs_last : s.pwmX = lastPwmX s.outLog ∧ s.pwmY = lastPwmY s.outLog ∧ s.greenOut = lastGreen s.outLog
  /-- The display shows the last image flushed (R33, R140). -/
  display_last : ∀ img, s.frames.getLast? = some img → s.disp = img
  /-- The header has its length (R32). -/
  header_length : s.fbHdr.length = s.params.fbHdrLen

end Sys2Proof.Machine
end

