-- ==== Sys2Proof/Certificates/Slice0/Obligations.lean ====
section
/-! DEFINITION. The statements for the provers, each from numbered rules of spec/. A statement `t = { s with … }` is the
frame: every field it does not name is unchanged. -/

open Sys2Proof Sys2Proof.Machine

/-! ## The sampler (R100 to R103) -/

/-- R100, R102: `SELX` and `SELY` switch the converter to the channel of their axis, whatever its number, and advance;
the selection is recorded (R38). -/
def Obligations.SelectSwitchesConverter : Prop :=
  ∀ s : State,
    (Enabled .selx s → exec .selx s =
      .next { s with adcSel := s.params.chX, phase := .rdx, adcLog := s.adcLog ++ [.select s.params.chX] }) ∧
    (Enabled .sely s → exec .sely s =
      .next { s with adcSel := s.params.chY, phase := .rdy, adcLog := s.adcLog ++ [.select s.params.chY] })

/-- R101, R103: `RDX` and `RDY` take the environment's answer, whatever it is: the queued sample, or some value when
none is queued. The queue and the counter are the model's choice (log entry 6); the read is recorded (R38). -/
def Obligations.ReadTakesEnvironmentSample : Prop :=
  ∀ (s : State) (v : Sample) (vs : List Sample),
    (Enabled .rdx s → s.draws = v :: vs → exec .rdx s =
      .next { s with rawX := v, phase := .sely, draws := vs, freeCount := s.freeCount + 1,
                     adcLog := s.adcLog ++ [.read s.adcSel v] }) ∧
    (Enabled .rdy s → s.draws = v :: vs → exec .rdy s =
      .next { s with rawY := v, phase := .dzx, draws := vs, freeCount := s.freeCount + 1,
                     adcLog := s.adcLog ++ [.read s.adcSel v] }) ∧
    (Enabled .rdx s → s.draws = [] → ∃ u : Sample, exec .rdx s =
      .next { s with rawX := u, phase := .sely, freeCount := s.freeCount + 1,
                     adcLog := s.adcLog ++ [.read s.adcSel u] }) ∧
    (Enabled .rdy s → s.draws = [] → ∃ u : Sample, exec .rdy s =
      .next { s with rawY := u, phase := .dzx, freeCount := s.freeCount + 1,
                     adcLog := s.adcLog ++ [.read s.adcSel u] })

/-! ## The dead-zone mapper (R104, R105) -/

/-- R104, R105: the deflection is the whole distance from 2048, and the flag says whether it is at most 200. -/
def Obligations.DeadZoneMapsSample : Prop :=
  ∀ s : State,
    (Enabled .dzx s → ∃ t, exec .dzx s = .next t ∧
      t.dx.toNat = ((2048 : Int) - s.rawX.toNat).natAbs ∧ (t.cenX = true ↔ t.dx.toNat ≤ 200) ∧
      t = { s with dx := t.dx, cenX := t.cenX, phase := .dzy }) ∧
    (Enabled .dzy s → ∃ t, exec .dzy s = .next t ∧
      t.dy.toNat = ((2048 : Int) - s.rawY.toNat).natAbs ∧ (t.cenY = true ↔ t.dy.toNat ≤ 200) ∧
      t = { s with dy := t.dy, cenY := t.cenY, phase := .cmap })

/-! ## The brightness scaler (R111 to R116) -/

/-- R111, R113: the three branches of the level, for every deflection whose product the 12-bit register can hold; the
operation completes for every other deflection too. -/
def Obligations.LevelFollowsModeAndDeflection : Prop :=
  ∀ s : State,
    (Enabled .lvlx s → ∃ t, exec .lvlx s = .next t ∧ t = { s with lvlX := t.lvlX, phase := .drvx } ∧
      (s.ledEn = false → t.lvlX = 0#12) ∧ (s.cenX = true → t.lvlX = 0#12) ∧
      (s.ledEn = true → s.cenX = false → 200 ≤ s.dx.toNat → s.dx.toNat ≤ 2247 →
        t.lvlX.toNat = (s.dx.toNat - 200) * 2)) ∧
    (Enabled .lvly s → ∃ t, exec .lvly s = .next t ∧ t = { s with lvlY := t.lvlY, phase := .drvy } ∧
      (s.ledEn = false → t.lvlY = 0#12) ∧ (s.cenY = true → t.lvlY = 0#12) ∧
      (s.ledEn = true → s.cenY = false → 200 ≤ s.dy.toNat → s.dy.toNat ≤ 2247 →
        t.lvlY.toNat = (s.dy.toNat - 200) * 2))

/-- R112, R114 (and the spec's decision D10): the computed level, a zero too, is driven on the axis's channel, and the
write is recorded (R43). -/
def Obligations.DriveWritesLevel : Prop :=
  ∀ s : State,
    (Enabled .drvx s → exec .drvx s =
      .next { s with pwmX := s.lvlX, phase := .lvly, outLog := s.outLog ++ [.pwmX s.lvlX] }) ∧
    (Enabled .drvy s → exec .drvy s =
      .next { s with pwmY := s.lvlY, phase := .clr, outLog := s.outLog ++ [.pwmY s.lvlY] })

/-- R115: in a state that meets the invariant the level an axis gets is the level function of its sample, it is a legal
level, and it never exceeds the PWM wrap value. -/
def Obligations.LevelIsFunctionOfSample : Prop :=
  ∀ s : State, Inv s →
    (Enabled .lvlx s → ∃ t, exec .lvlx s = .next t ∧
      t.lvlX.toNat = specLevel s.ledEn s.rawX.toNat ∧ t.lvlX.toNat ≤ 3696 ∧ t.lvlX.toNat % 2 = 0) ∧
    (Enabled .lvly s → ∃ t, exec .lvly s = .next t ∧
      t.lvlY.toNat = specLevel s.ledEn s.rawY.toNat ∧ t.lvlY.toNat ≤ 3696 ∧ t.lvlY.toNat % 2 = 0)

/-- R198: an accepted turn-off between `LVLX` and `DRVX` zeroes both outputs, and `DRVX` then drives the stale level
with the mode off. -/
def Obligations.StaleLevelAfterTurnOff : Prop :=
  ∀ (s : State) (j : Bool), Enabled .lvlx s → s.ledEn = true → s.cenX = false →
    200 < s.dx.toNat → s.dx.toNat ≤ 2048 → s.btnPrev = ⟨true, j⟩ → 200 < (s.timeMs - s.last).toNat →
    ∃ s1 s2 s3 s4, exec .lvlx s = .next s1 ∧ exec (.input false j) s1 = .next s2 ∧
      exec .irqA s2 = .next s3 ∧ exec .drvx s3 = .next s4 ∧
      s3.ledEn = false ∧ s3.pwmX = 0#12 ∧ s3.pwmY = 0#12 ∧
      s4.ledEn = false ∧ s4.pwmX.toNat = (s.dx.toNat - 200) * 2 ∧ 0 < s4.pwmX.toNat

/-! ## The cursor mapper (R121, R122) -/

/-- R121 (and the spec's decision D31 on the order of the arithmetic): `CMAP` on every pair of samples. -/
def Obligations.CursorMapsSamples : Prop :=
  ∀ s : State, Enabled .cmap s → ∃ t, exec .cmap s = .next t ∧
    t.curX.toInt = ((s.rawX.toNat * 120 / 4095 : Nat) : Int) - 60 ∧
    t.curY.toInt = 56 - ((s.rawY.toNat * 56 / 4095 : Nat) : Int) - 28 ∧
    t = { s with curX := t.curX, curY := t.curY, phase := .lvlx }

/-- R122, R23: the cursor is monotone, X upward and Y downward, and stays in its range. -/
def Obligations.CursorMonotoneInRange : Prop :=
  ∀ s s' t t' : State, exec .cmap s = .next s' → exec .cmap t = .next t' →
    (s.rawX.toNat ≤ t.rawX.toNat → s'.curX.toInt ≤ t'.curX.toInt) ∧
    (s.rawY.toNat ≤ t.rawY.toNat → t'.curY.toInt ≤ s'.curY.toInt) ∧
    -60 ≤ s'.curX.toInt ∧ s'.curX.toInt ≤ 60 ∧ -28 ≤ s'.curY.toInt ∧ s'.curY.toInt ≤ 28

/-! ## The composer and the framebuffer (R130 to R141) -/

/-- R131, R137: `CLR` and `CLEAR` make every pixel dark and change nothing else, the header bytes included. That `CLEAR`
is also a step of its own, enabled while nothing is pending, is the model's choice (log entry 11). -/
def Obligations.ClearDarkensEveryPixel : Prop :=
  ∀ s : State,
    (Enabled .clr s → ∃ t, exec .clr s = .next t ∧ (∀ x y, x < 128 → y < 64 → t.fb.pixel x y = false) ∧
      t = { s with fb := t.fb, phase := .brd }) ∧
    (Enabled .clear s → ∃ t, exec .clear s = .next t ∧ (∀ x y, x < 128 → y < 64 → t.fb.pixel x y = false) ∧
      t = { s with fb := t.fb })

/-- R132 (and the spec's decision D26 on the outlines): `BRD` adds the border of the style `BORDER` selects, none, thin
or full, and changes nothing else. -/
def Obligations.BorderFollowsStyle : Prop :=
  ∀ s : State, Enabled .brd s → ∃ t, exec .brd s = .next t ∧
    (∀ x y : Nat, x < 128 → y < 64 → (t.fb.pixel x y = true ↔ s.fb.pixel x y = true ∨ BorderLit s.border x y)) ∧
    t = { s with fb := t.fb, phase := .mrk }

/-- R133, R123 (and the spec's decisions D22, D27, D28): `MRK` adds the filled square whose top-left pixel is at the
origin plus the cursor, each coordinate held in 9 bits two's complement (`sext_9`), for every origin and every value the
cursor registers can hold, clipped at the buffer's edges, and changes nothing else. Under a configuration a model takes
and with a cursor in its range (R23) the 9 bits hold the exact sum (R68). -/
def Obligations.MarkerDrawnAtCursor : Prop :=
  ∀ s : State, Enabled .mrk s → ∃ t, exec .mrk s = .next t ∧
    (∀ x y : Nat, x < 128 → y < 64 → (t.fb.pixel x y = true ↔ s.fb.pixel x y = true ∨
      MarkerLit ((s.params.ox + s.curX.toInt).bmod 512) ((s.params.oy + s.curY.toInt).bmod 512) x y)) ∧
    (s.params.accepted = true → -60 ≤ s.curX.toInt → s.curX.toInt ≤ 60 → -28 ≤ s.curY.toInt → s.curY.toInt ≤ 28 →
      ∀ x y : Nat, x < 128 → y < 64 → (t.fb.pixel x y = true ↔ s.fb.pixel x y = true ∨
        MarkerLit (s.params.ox + s.curX.toInt) (s.params.oy + s.curY.toInt) x y)) ∧
    t = { s with fb := t.fb, phase := .fls }

/-- R138, R139 (and the spec's decisions D25 to D27): `RECT` with any operands, inside the buffer or not, adds exactly
the pixels of its rectangle or outline that exist, and changes nothing else. That `RECT` is a step of its own, enabled
while nothing is pending, and that as a term it takes integers beyond the field ranges of R138, is the model's choice
(log entry 11). -/
def Obligations.RectAddsItsPixels : Prop :=
  ∀ (s : State) (fill : Bool) (x y : Int) (w h : Nat), Enabled (.rect fill x y w h) s →
    ∃ t, exec (.rect fill x y w h) s = .next t ∧
    (∀ px py : Nat, px < 128 → py < 64 →
      (t.fb.pixel px py = true ↔ s.fb.pixel px py = true ∨ RectLit fill x y w h px py)) ∧
    t = { s with fb := t.fb }

/-- R134, R140 (and the spec's decision D29 on the atomic copy): `FLS` and `FLUSH` replace the whole display image by the
buffer and append it to the trace of frames. That `FLUSH` is also a step of its own is the model's choice (log entry 11). -/
def Obligations.FlushReplacesDisplay : Prop :=
  ∀ s : State,
    (Enabled .fls s → exec .fls s = .next { s with disp := s.fb, frames := s.frames ++ [s.fb], phase := .slpe }) ∧
    (Enabled .flush s → exec .flush s = .next { s with disp := s.fb, frames := s.frames ++ [s.fb] })

/-! ## The sleep (R152, R153) -/

/-- R152, R153 (and the spec's decision D17): `SLPE` latches the time; `SLPW` completes when at least 100 ms have passed
modulo 2^32, and is turned away before that (U16). -/
def Obligations.SleepWaitsHundredMs : Prop :=
  ∀ s : State,
    (Enabled .slpe s → exec .slpe s = .next { s with slpT0 := s.timeMs, phase := .slpw }) ∧
    (Enabled .slpw s → exec .slpw s = .next { s with phase := .selx }) ∧
    (s.irqPend.a = false → s.irqPend.j = false → s.phase = .slpw → (s.timeMs - s.slpT0).toNat < 100 →
      exec .slpw s = .refused .sleepNotOver)

/-! ## The handler (R83 to R89, R197) -/

/-- R84 (and the spec's decision D36 on which outputs go to zero): an accepted `IRQ_A`. -/
def Obligations.AcceptedButtonAFlipsEnable : Prop :=
  ∀ s : State, Enabled .irqA s → 200 < (s.timeMs - s.last).toNat →
    (s.ledEn = true → exec .irqA s =
      .next { s with ledEn := false, pwmX := 0#12, pwmY := 0#12, last := s.timeMs,
                     irqPend := ⟨false, s.irqPend.j⟩,
                     outLog := s.outLog ++ [.pwmX 0#12, .pwmY 0#12] }) ∧
    (s.ledEn = false → exec .irqA s =
      .next { s with ledEn := true, last := s.timeMs, irqPend := ⟨false, s.irqPend.j⟩ })

/-- R85 with the gate of R83 (the elapsed time modulo 2^32 is the spec's decision D2): an accepted `IRQ_J` flips the green
LED, drives it, and advances the border modulo 3. -/
def Obligations.AcceptedJoystickFlipsGreen : Prop :=
  ∀ s : State, Enabled .irqJ s → 200 < (s.timeMs - s.last).toNat →
    ∃ t, exec .irqJ s = .next t ∧ t.border.code = (s.border.code + 1) % 3 ∧
      t = { s with green := !s.green, greenOut := !s.green, border := t.border, last := s.timeMs,
                   irqPend := ⟨s.irqPend.a, false⟩, outLog := s.outLog ++ [.green (!s.green)] }

/-- R86 with the gate of R83 (the spec's decisions: D2 takes the elapsed time modulo 2^32, D37 leaves `LAST` at a dropped
press): a press handled 200 ms or less after the last accepted one clears its pending bit and changes nothing else. -/
def Obligations.DroppedPressChangesNothing : Prop :=
  ∀ s : State, (s.timeMs - s.last).toNat ≤ 200 →
    (Enabled .irqA s → exec .irqA s = .next { s with irqPend := ⟨false, s.irqPend.j⟩ }) ∧
    (Enabled .irqJ s → exec .irqJ s = .next { s with irqPend := ⟨s.irqPend.a, false⟩ })

/-- R87, R197 (and the spec's decision D37): after an accepted press of either button, a press of either button handled
within 200 ms is dropped. -/
def Obligations.AcceptedPressSuppressesBoth : Prop :=
  ∀ (l l' : Line) (s t u : State), exec l.instr s = .next t → 200 < (s.timeMs - s.last).toNat →
    u.last = t.last → u.irqPend.get l' = true → (u.timeMs - s.timeMs).toNat ≤ 200 →
    exec l'.instr u = .next { u with irqPend := u.irqPend.set l' false }

/-- R170, R89 (c): with both lines pending both orders of the handler steps complete, and the second step's press is
dropped whatever the first one's fate. -/
def Obligations.SimultaneousPressesAtMostOne : Prop :=
  ∀ (l l' : Line) (s : State), l ≠ l' → s.irqPend = ⟨true, true⟩ →
    ∃ t, exec l.instr s = .next t ∧
      exec l'.instr t = .next { t with irqPend := ⟨false, false⟩ }

/-- R13, R85: over any sequence of accepted joystick presses, between which nothing else writes the two registers,
`BORDER` after `n` of them is `n` modulo 3 and `GREEN` is `n` modulo 2, from none and off. -/
def Obligations.BorderCyclesModuloThree : Prop :=
  ∀ f : Nat → State, (f 0).border = .none → (f 0).green = false →
    (∀ k, 200 < ((f k).timeMs - (f k).last).toNat ∧
      ∃ t, exec .irqJ (f k) = .next t ∧ (f (k + 1)).border = t.border ∧ (f (k + 1)).green = t.green) →
    ∀ n, (f n).border.code = n % 3 ∧ (f n).green = decide (n % 2 = 1)

/-! ## The environment's events (R80, R155, R190) -/

/-- R155 (and the spec's decision D16): `TICK` adds one millisecond modulo 2^32 and changes nothing else. -/
def Obligations.TickAddsOneMillisecond : Prop :=
  ∀ s : State, Enabled .tick s → ∃ t, exec .tick s = .next t ∧
    t.timeMs.toNat = (s.timeMs.toNat + 1) % 2 ^ 32 ∧ t = { s with timeMs := t.timeMs }

/-- R80, R81 (and the spec's decision D11): `INPUT` stores the levels, and a line becomes pending exactly when it falls. -/
def Obligations.InputRaisesFallingEdges : Prop :=
  ∀ (s : State) (a j : Bool), Enabled (.input a j) s → ∃ t, exec (.input a j) s = .next t ∧
    (t.irqPend.a = true ↔ s.btnPrev.a = true ∧ a = false) ∧
    (t.irqPend.j = true ↔ s.btnPrev.j = true ∧ j = false) ∧
    t = { s with btnPrev := ⟨a, j⟩, irqPend := t.irqPend }

/-- R190, R157: `RESET` completes in every state and gives every register that has a reset value its value. The modes'
values are the source's; the others are the spec's decisions D3, D4, D7, D11, D16 and D29. The configuration stays. -/
def Obligations.ResetGivesStatedValues : Prop :=
  ∀ s : State, ∃ t, exec .reset s = .next t ∧
    t.ledEn = true ∧ t.green = false ∧ t.border = .none ∧ t.last = 0#32 ∧
    t.pwmX = 0#12 ∧ t.pwmY = 0#12 ∧ t.greenOut = false ∧ t.phase = .selx ∧
    t.btnPrev = ⟨true, true⟩ ∧ t.irqPend = ⟨false, false⟩ ∧ t.timeMs = 0#32 ∧ t.frames = [] ∧
    t.params = s.params ∧ t.fbHdr.length = s.params.fbHdrLen

/-! ## Scheduling and the step (R150, R158, R165, R166) -/

/-- R150, R158, R166 (and the spec's decision D12): an instruction completes in exactly the states in which its step is
enabled, and is refused in the others. That `CLEAR`, `RECT` and `FLUSH` are steps, enabled while nothing is pending, is the
model's choice (log entry 11); that a step which is not enabled is refused is how the model reports it (log entry 10). -/
def Obligations.CompletesExactlyWhenEnabled : Prop :=
  ∀ (i : Instr) (s : State),
    (Enabled i s → ∃ t, exec i s = .next t) ∧ (¬ Enabled i s → ∃ r, exec i s = .refused r)

/-- R158, R171 (and the spec's decision D12): while a line is pending every instruction but the handler steps and `RESET`
is turned away, a framebuffer command too (the model's choice, log entry 11), by a refusal (log entry 10). -/
def Obligations.PendingHoldsEverythingElse : Prop :=
  ∀ (i : Instr) (s : State), s.irqPend.a = true ∨ s.irqPend.j = true →
    i ≠ .irqA → i ≠ .irqJ → i ≠ .reset → exec i s = .refused .interruptPending

/-- R165, R166 (a): no step ends in a fault. The block raises no exception; and the fault R166 lets a model report, a read
of a register that holds no value, is given by no state at all because every register holds a value, the model's choice
(log entry 3). -/
def Obligations.NoStepFaults : Prop :=
  ∀ (s : State) (r : Fault), step s ≠ .fault r

/-- R166: no state is stuck: `RESET` completes, and so does a handler step or `TICK`. -/
def Obligations.NoStateIsStuck : Prop :=
  ∀ s : State, (∃ t, exec .reset s = .next t) ∧
    ((∃ t, exec .irqA s = .next t) ∨ (∃ t, exec .irqJ s = .next t) ∨ (∃ t, exec .tick s = .next t))

/-- R70, R72: a step runs the instruction its word decodes to, with the word used up; a word that is no instruction is
refused. With no word presented the free-running block steps (log entry 2) and the model's counter moves on. A
configuration no model takes is refused (R68, R166 b), and no step is taken. -/
def Obligations.StepRunsDecodedWord : Prop :=
  ∀ (s : State) (w : StepWord) (ws : List StepWord) (i : Instr),
    (s.params.accepted = true → s.trace = w :: ws → decode w = .ok i → step s = exec i { s with trace := ws }) ∧
    (s.params.accepted = true → s.trace = w :: ws → (∀ k, decode w ≠ .ok k) → ∃ e, step s = .refused (.invalidWord e)) ∧
    (s.params.accepted = true → s.trace = [] → decode s.freeWord = .ok i →
      step s = exec i { s with freeCount := s.freeCount + 1 }) ∧
    (s.params.accepted = false → step s = .refused .configuration)

/-- The free-running block (the model's choice, log entry 2, among the steps R158 enables): a pending handler step,
either one when both are pending; else the operation `PHASE` selects; else, held in the sleep, a tick. -/
def Obligations.FreeRunPicksEnabledStep : Prop :=
  ∀ s : State, s.params.accepted = true → s.trace = [] →
    (s.irqPend = ⟨true, false⟩ → step s = exec .irqA { s with freeCount := s.freeCount + 1 }) ∧
    (s.irqPend = ⟨false, true⟩ → step s = exec .irqJ { s with freeCount := s.freeCount + 1 }) ∧
    (s.irqPend = ⟨true, true⟩ → step s = exec .irqA { s with freeCount := s.freeCount + 1 } ∨
      step s = exec .irqJ { s with freeCount := s.freeCount + 1 }) ∧
    (Enabled s.phase.instr s → step s = exec s.phase.instr { s with freeCount := s.freeCount + 1 }) ∧
    (s.irqPend = ⟨false, false⟩ → ¬ Enabled s.phase.instr s →
      step s = exec .tick { s with freeCount := s.freeCount + 1 })

/-- R18, R151: every foreground operation moves `PHASE` to the next code, from 16 to 0; no other step but `RESET` moves
it, and `RESET` sets it to 0. -/
def Obligations.PhaseAdvancesInOrder : Prop :=
  ∀ (i : Instr) (s t : State), exec i s = .next t →
    (IsForeground i → i = s.phase.instr ∧ t.phase.code.toNat = (s.phase.code.toNat + 1) % 17) ∧
    (¬ IsForeground i → i ≠ .reset → t.phase = s.phase) ∧
    (i = .reset → t.phase.code = 0#5)

/-- R10, R46: which instruction may write which register; every other pairing leaves the register unchanged. -/
def Obligations.OnlyOwnersWrite : Prop :=
  ∀ (i : Instr) (s t : State), exec i s = .next t → i ≠ .reset →
    (i ≠ .irqA → t.ledEn = s.ledEn) ∧
    (i ≠ .irqJ → t.green = s.green ∧ t.border = s.border ∧ t.greenOut = s.greenOut) ∧
    (i ≠ .irqA → i ≠ .irqJ → t.last = s.last) ∧
    (i ≠ .irqA → i ≠ .drvx → t.pwmX = s.pwmX) ∧
    (i ≠ .irqA → i ≠ .drvy → t.pwmY = s.pwmY) ∧
    (i ≠ .selx → i ≠ .sely → t.adcSel = s.adcSel) ∧
    (i ≠ .rdx → t.rawX = s.rawX) ∧ (i ≠ .rdy → t.rawY = s.rawY) ∧
    (i ≠ .dzx → t.dx = s.dx ∧ t.cenX = s.cenX) ∧ (i ≠ .dzy → t.dy = s.dy ∧ t.cenY = s.cenY) ∧
    (i ≠ .cmap → t.curX = s.curX ∧ t.curY = s.curY) ∧
    (i ≠ .lvlx → t.lvlX = s.lvlX) ∧ (i ≠ .lvly → t.lvlY = s.lvlY) ∧
    (i ≠ .slpe → t.slpT0 = s.slpT0) ∧
    ((∀ a j, i ≠ .input a j) → t.btnPrev = s.btnPrev) ∧
    ((∀ a j, i ≠ .input a j) → i ≠ .irqA → i ≠ .irqJ → t.irqPend = s.irqPend) ∧
    (i ≠ .tick → t.timeMs = s.timeMs) ∧
    (i ≠ .clr → i ≠ .brd → i ≠ .mrk → i ≠ .clear → (∀ f x y w h, i ≠ .rect f x y w h) → t.fb = s.fb) ∧
    (i ≠ .fls → i ≠ .flush → t.disp = s.disp ∧ t.frames = s.frames) ∧
    t.fbHdr = s.fbHdr ∧ t.params = s.params

/-- R10 and conflict C4: the foreground depends on neither `GREEN`, `LAST` nor `GREEN_OUT`; two states that differ only
there take the same foreground step. -/
def Obligations.ForegroundIgnoresHandlerPrivateState : Prop :=
  ∀ (i : Instr) (s t : State) (g o : Bool) (l : Time), IsForeground i → exec i s = .next t →
    exec i { s with green := g, greenOut := o, last := l } =
      .next { t with green := g, greenOut := o, last := l }

/-! ## Invariants -/

/-- The reset state meets the invariant, under every configuration. The registers R36 leaves without a value enter with
the model's choice (log entry 3): the invariant's ranges hold of those choices. -/
def Obligations.ResetMeetsInvariant : Prop := Inv State.reset ∧ ∀ p : Params, Inv (State.resetWith p)

/-- R13 to R25, R33, R43, R104, R105, R121: every step, of whichever agent, keeps the invariant, from every state that
meets it. -/
def Obligations.StepKeepsInvariant : Prop :=
  ∀ s t : State, Inv s → step s = .next t → Inv t

/-! ## Whole frames, as a trace presents them (R70, R71) -/

/-- R71, R115, R121, R136: the trace lines `WORK x y`, from `SELX` with nothing pending and the draws `x` and `y`, run to
`SLPE`; they drive the level function of each sample, and flush one image that shows exactly the border of `BORDER` and
the marker at the origin plus the cursor of the samples, under every configuration a model takes. Whatever the buffer
and the display held before, nothing of it is left (R135). -/
def Obligations.FrameShowsSamples : Prop :=
  ∀ (s : State) (x y : Sample) (vs : List Sample) (ws : List StepWord),
    s.params.accepted = true → s.irqPend = ⟨false, false⟩ → s.phase = .selx → s.draws = x :: y :: vs →
    s.trace = ((Macro.work x y).lines s.btnPrev).map encode ++ ws →
    ∃ t : State, Host.Core.run core 15 s = .next t ∧
      t.phase = .slpe ∧ t.draws = vs ∧ t.trace = ws ∧
      t.pwmX.toNat = specLevel s.ledEn x.toNat ∧ t.pwmY.toNat = specLevel s.ledEn y.toNat ∧
      t.curX.toInt = specCurX x.toNat ∧ t.curY.toInt = specCurY y.toNat ∧
      t.frames = s.frames ++ [t.disp] ∧
      (∀ px py : Nat, px < 128 → py < 64 → (t.disp.pixel px py = true ↔
        BorderLit s.border px py ∨
          MarkerLit (s.params.ox + specCurX x.toNat) (s.params.oy + specCurY y.toNat) px py)) ∧
      t.outLog = s.outLog ++ [.pwmX t.pwmX, .pwmY t.pwmY] ∧
      t.ledEn = s.ledEn ∧ t.green = s.green ∧ t.greenOut = s.greenOut ∧ t.border = s.border ∧ t.last = s.last ∧
      t.timeMs = s.timeMs ∧ t.slpT0 = s.slpT0 ∧ t.btnPrev = s.btnPrev ∧ t.irqPend = s.irqPend ∧ t.fbHdr = s.fbHdr ∧
      t.params = s.params

/-- R71, R152, R153 (and the spec's decision D17): the trace lines `SLEEP`, from `SLPE` with nothing pending, run to the
next frame's `SELX`, at any time, across the wrap of `TIME_MS` too; they change the time by 100, `SLP_T0` and `PHASE`. -/
def Obligations.SleepLinesTakeHundredTicks : Prop :=
  ∀ (s : State) (ws : List StepWord), s.params.accepted = true → s.irqPend = ⟨false, false⟩ → s.phase = .slpe →
    s.trace = (Macro.sleep.lines s.btnPrev).map encode ++ ws →
    Host.Core.run core 102 s = .next ({ s with
      phase := .selx, slpT0 := s.timeMs, timeMs := s.timeMs + 100#32, trace := ws } : State)

/-! ## Encoding (R60 to R67, R73) -/

/-- R62, R63, R64, R67: words written out from the encoding tables decode to the instructions they stand for. -/
def Obligations.TableWordsDecode : Prop :=
  decode (.phase 0b00000#5) = .ok .selx ∧ decode (.phase 0b00110#5) = .ok .cmap ∧
  decode (.phase 0b10000#5) = .ok .slpw ∧ decode (.irq 0b0#1) = .ok .irqA ∧ decode (.irq 0b1#1) = .ok .irqJ ∧
  decode (.command 0x000000000#36) = .ok .clear ∧ decode (.command 0x800000000#36) = .ok .flush ∧
  decode (.command 0x402013E3C#36) = .ok (.rect false 2 2 124 60) ∧
  decode (.command 0x7C40E0408#36) = .ok (.rect true (-60) 28 8 8) ∧
  decode (.event 0b0000#4) = .ok .tick ∧ decode (.event 0b0110#4) = .ok (.input true false) ∧
  decode (.event 0b1000#4) = .ok .reset

/-- R73 (and the spec's decision D34): reserved codes and stray bits are no instruction. -/
def Obligations.ReservedWordsRefused : Prop :=
  (∀ op : BitVec 5, 17 ≤ op.toNat → decode (.phase op) = .error .reservedPhase) ∧
  (∀ c : BitVec 36, fieldFop c = 3#2 → decode (.command c) = .error .reservedFrameOp) ∧
  (∀ c : BitVec 36, fieldFop c = 0#2 ∨ fieldFop c = 2#2 → fieldRest c ≠ 0#34 →
    decode (.command c) = .error .strayBits) ∧
  (∀ e : BitVec 4, 12 ≤ e.toNat → decode (.event e) = .error .reservedEvent) ∧
  (∀ e : BitVec 4, e.toNat / 4 = 0 ∨ e.toNat / 4 = 2 → e.toNat % 4 ≠ 0 → decode (.event e) = .error .strayBits)

/-- R60 to R67: decoding an encoded well-formed instruction gives it back, with every operand. -/
def Obligations.DecodeEncodeRoundTrip : Prop :=
  ∀ i : Instr, WellFormed i → decode (encode i) = .ok i

/-- R73: each word that decodes has one meaning: its instruction is well formed and encodes to that very word. -/
def Obligations.EncodeDecodeRoundTrip : Prop :=
  ∀ (w : StepWord) (i : Instr), decode w = .ok i → WellFormed i ∧ encode i = w

/-! ## Pseudo-operations behind a waiting trace, and the frame period -/

/-- R71, R70: a pseudo-operation presented while other words wait is expanded for the `BTN_PREV` that holds when it is
reached, and the draws on its read lines answer these reads: when the waiting words have run, the machine is where it would
be had the pseudo-operation been presented only then. The two lists are the model's choice (log entries 1 and 6). -/
def Obligations.LoadWaitsForItsTurn : Prop :=
  ∀ (s t : State) (m : Macro), Host.Core.run core s.trace.length s = .next t →
    Host.Core.run core s.trace.length (s.load m) = .next (t.load m) ∧ t.trace = []

/-- R159, R160 (and the spec's decisions D17, D39 on the sleep and on `WORK_MS`): a frame from its `SELX` step, with ticks
anywhere among its working operations and `d` ticks more than the sleep needs before `SLPW` is taken, completes at the
next frame's `SELX`, and takes 100 ms, one more for each tick of its work and the delay `d`: never less than 100, and no
more than 100 plus `WORK_MS` plus the delay when that parameter has a value and the work keeps to it. -/
def Obligations.FramePeriodIsHundredPlusWork : Prop :=
  ∀ (s : State) (work : List Instr) (d : Nat) (ws : List StepWord), s.params.accepted = true →
    s.irqPend = ⟨false, false⟩ → s.phase = .selx → work.filter (fun i => decide (i ≠ .tick)) = workLines.tail →
    d + 100 < 2 ^ 32 →
    s.trace = (Instr.selx :: work ++ Instr.slpe :: (List.replicate (100 + d) Instr.tick ++ [Instr.slpw])).map encode ++ ws →
    ∃ (t : State) (ms : Nat), Host.Core.run core (work.length + d + 103) s = .next t ∧
      t.phase = .selx ∧ t.trace = ws ∧ t.timeMs = s.timeMs + BitVec.ofNat 32 ms ∧
      ms = 100 + work.countP (fun i => decide (i = .tick)) + d ∧
      (s.params.workWithin (work.countP fun i => decide (i = .tick)) →
        ∀ bound, s.params.workMs = some bound → ms ≤ 100 + bound + d)
end

