-- ==== Sys2Proof/Laws/Decode.lean ====
section
/-! SUPPORT. The fields of an encoded command, one lemma each: what the encoder puts in, the decoder takes out. -/

namespace Sys2Proof

theorem fieldFop_commandWord (fop : BitVec 2) (fill : Bool) (x y : Int) (w h : Nat) :
    fieldFop (commandWord fop fill x y w h) = fop := by
  apply BitVec.eq_of_getLsbD_eq
  intro i hi
  simp only [fieldFop, commandWord, BitVec.getLsbD_extractLsb', BitVec.getLsbD_append]
  rcases (show i = 0 ∨ i = 1 by omega) with rfl | rfl <;> simp

theorem fieldFill_commandWord (fop : BitVec 2) (fill : Bool) (x y : Int) (w h : Nat) :
    fieldFill (commandWord fop fill x y w h) = fill := by
  simp only [fieldFill, commandWord, BitVec.getLsbD_append]
  cases fill <;> rfl

theorem extractX_commandWord (fop : BitVec 2) (fill : Bool) (x y : Int) (w h : Nat) :
    (commandWord fop fill x y w h).extractLsb' 24 9 = BitVec.ofInt 9 x := by
  apply BitVec.eq_of_getLsbD_eq
  intro i hi
  have e1 : ¬ 24 + i < 7 := by omega
  have e2 : ¬ 24 + i - 7 < 8 := by omega
  have e3 : ¬ 24 + i - 7 - 8 < 9 := by omega
  have e5 : 24 + i - 7 - 8 - 9 = i := by omega
  simp only [commandWord, BitVec.getLsbD_extractLsb', BitVec.getLsbD_append, hi, decide_true, Bool.true_and,
    e1, e2, e3, if_true, if_false, e5]

theorem extractY_commandWord (fop : BitVec 2) (fill : Bool) (x y : Int) (w h : Nat) :
    (commandWord fop fill x y w h).extractLsb' 15 9 = BitVec.ofInt 9 y := by
  apply BitVec.eq_of_getLsbD_eq
  intro i hi
  have e1 : ¬ 15 + i < 7 := by omega
  have e2 : ¬ 15 + i - 7 < 8 := by omega
  have e5 : 15 + i - 7 - 8 = i := by omega
  simp only [commandWord, BitVec.getLsbD_extractLsb', BitVec.getLsbD_append, hi, decide_true, Bool.true_and,
    e1, e2, if_true, if_false, e5]

theorem extractW_commandWord (fop : BitVec 2) (fill : Bool) (x y : Int) (w h : Nat) :
    (commandWord fop fill x y w h).extractLsb' 7 8 = BitVec.ofNat 8 w := by
  apply BitVec.eq_of_getLsbD_eq
  intro i hi
  have e1 : ¬ 7 + i < 7 := by omega
  have e5 : 7 + i - 7 = i := by omega
  simp only [commandWord, BitVec.getLsbD_extractLsb', BitVec.getLsbD_append, hi, decide_true, Bool.true_and,
    e1, if_true, if_false, e5]

theorem extractH_commandWord (fop : BitVec 2) (fill : Bool) (x y : Int) (w h : Nat) :
    (commandWord fop fill x y w h).extractLsb' 0 7 = BitVec.ofNat 7 h := by
  apply BitVec.eq_of_getLsbD_eq
  intro i hi
  have e5 : 0 + i = i := by omega
  simp only [commandWord, BitVec.getLsbD_extractLsb', BitVec.getLsbD_append, hi, decide_true, Bool.true_and,
    if_true, e5]

theorem fieldX_commandWord (fop : BitVec 2) (fill : Bool) (x y : Int) (w h : Nat) (h1 : -256 ≤ x) (h2 : x ≤ 255) :
    fieldX (commandWord fop fill x y w h) = x := by
  rw [fieldX, extractX_commandWord, BitVec.toInt_ofInt]
  exact Int.bmod_eq_of_le (by omega) (by omega)

theorem fieldY_commandWord (fop : BitVec 2) (fill : Bool) (x y : Int) (w h : Nat) (h1 : -256 ≤ y) (h2 : y ≤ 255) :
    fieldY (commandWord fop fill x y w h) = y := by
  rw [fieldY, extractY_commandWord, BitVec.toInt_ofInt]
  exact Int.bmod_eq_of_le (by omega) (by omega)

theorem fieldW_commandWord (fop : BitVec 2) (fill : Bool) (x y : Int) (w h : Nat) (h1 : w ≤ 255) :
    fieldW (commandWord fop fill x y w h) = w := by
  rw [fieldW, extractW_commandWord, BitVec.toNat_ofNat]
  exact Nat.mod_eq_of_lt (by omega)

theorem fieldH_commandWord (fop : BitVec 2) (fill : Bool) (x y : Int) (w h : Nat) (h1 : h ≤ 127) :
    fieldH (commandWord fop fill x y w h) = h := by
  rw [fieldH, extractH_commandWord, BitVec.toNat_ofNat]
  exact Nat.mod_eq_of_lt (by omega)

/-- What the well-formedness check asks of a rectangle. -/
theorem wellFormed_rect {fill : Bool} {x y : Int} {w h : Nat} :
    WellFormed (.rect fill x y w h) ↔ (-256 ≤ x ∧ x ≤ 255) ∧ (-256 ≤ y ∧ y ≤ 255) ∧ w ≤ 255 ∧ h ≤ 127 := by
  simp only [WellFormed, wellFormed, Bool.and_eq_true, decide_eq_true_eq]
  tauto

/-- The fields of any command word are in range. -/
theorem fields_range (c : BitVec 36) :
    (-256 ≤ fieldX c ∧ fieldX c ≤ 255) ∧ (-256 ≤ fieldY c ∧ fieldY c ≤ 255) ∧ fieldW c ≤ 255 ∧ fieldH c ≤ 127 := by
  have h1 := (c.extractLsb' 24 9).le_toInt
  have h2 := (c.extractLsb' 24 9).toInt_lt
  have h3 := (c.extractLsb' 15 9).le_toInt
  have h4 := (c.extractLsb' 15 9).toInt_lt
  have h5 := (c.extractLsb' 7 8).isLt
  have h6 := (c.extractLsb' 0 7).isLt
  simp only [fieldX, fieldY, fieldW, fieldH]
  omega

end Sys2Proof
end

