-- ==== Sys2Proof/Laws/Image.lean ====
section
/-! SUPPORT. The pixel laws: read after write, what each framebuffer primitive does to each pixel, and equal pixels are
equal images. -/

namespace Sys2Proof.Machine

theorem Image.pixel_of_lt (img : Image) (x : Nat) {y : Nat} (h : y < 64) :
    img.pixel x y = img.rows[y].getLsbD x := by
  simp [Image.pixel, h]

theorem Image.pixel_outside_rows (img : Image) (x : Nat) {y : Nat} (h : 64 ≤ y) : img.pixel x y = false := by
  simp [Image.pixel, Nat.not_lt.mpr h]

/-- Images with the same pixels are the same data: the representation is canonical. -/
theorem Image.ext_pixel (i k : Image) (h : ∀ x y, x < 128 → y < 64 → i.pixel x y = k.pixel x y) : i = k := by
  obtain ⟨u⟩ := i
  obtain ⟨v⟩ := k
  congr 1
  apply Vector.ext
  intro y hy
  apply BitVec.eq_of_getLsbD_eq
  intro x hx
  simpa [Image.pixel, hy] using h x y hx hy

/-- A write lights its own pixel and leaves every other alone. -/
theorem Image.pixel_setPixel (img : Image) {x y : Nat} (hx : x < 128) (hy : y < 64) (a b : Nat) :
    (img.setPixel x y).pixel a b = (img.pixel a b || (decide (a = x) && decide (b = y))) := by
  unfold Image.pixel Image.setPixel
  by_cases hb : b < 64
  · rw [dif_pos hy, dif_pos hb, dif_pos hb]
    by_cases hby : y = b
    · subst hby
      simp [BitVec.getLsbD_twoPow, hx, eq_comm]
    · simp [hby, Ne.symm hby]
  · have : b ≠ y := by omega
    simp [hb, this]

@[simp] theorem pixel_fbClear (a b : Nat) : fbClear.pixel a b = false := by
  unfold Image.pixel fbClear
  split <;> simp

@[simp] theorem pixel_allDark (a b : Nat) : Image.allDark.pixel a b = false := pixel_fbClear a b

/-- Lighting a position lights the pixel there, if it exists, and nothing else (R139). -/
theorem Image.pixel_light (img : Image) (px py : Int) {a b : Nat} (ha : a < 128) (hb : b < 64) :
    (img.light px py).pixel a b = (img.pixel a b || (decide ((a : Int) = px) && decide ((b : Int) = py))) := by
  unfold Image.light
  split
  next h =>
    simp only [inBuffer, Bool.and_eq_true, decide_eq_true_eq] at h
    rw [Image.pixel_setPixel _ (by omega) (by omega)]
    have e1 : (a = px.toNat) ↔ ((a : Int) = px) := by omega
    have e2 : (b = py.toNat) ↔ ((b : Int) = py) := by omega
    simp only [e1, e2]
  next h =>
    simp only [inBuffer, Bool.and_eq_true, decide_eq_true_eq] at h
    have : ¬ ((a : Int) = px ∧ (b : Int) = py) := by omega
    rw [← Bool.decide_and, decide_eq_false this, Bool.or_false]

/-- The inner loop lights, of column `px`, the first `n` rows that are filled or on the edge. -/
theorem pixel_drawRows (fill : Bool) (x y : Int) (w h : Nat) (px : Int) (n : Nat) (img : Image)
    {a b : Nat} (ha : a < 128) (hb : b < 64) :
    (drawRows fill x y w h px n img).pixel a b =
      (img.pixel a b || (decide ((a : Int) = px ∧ y ≤ b ∧ (b : Int) < y + n) && (fill || onEdge x y w h a b))) := by
  induction n with
  | zero =>
    have : ¬ ((a : Int) = px ∧ y ≤ b ∧ (b : Int) < y + (0 : Nat)) := by omega
    simp only [drawRows, decide_eq_false this, Bool.false_and, Bool.or_false]
  | succ n ih =>
    have key : ∀ P : Bool, (P = true ↔ ((a : Int) = px ∧ (b : Int) = y + n ∧ (fill || onEdge x y w h px (y + n)) = true)) →
        (img.pixel a b || (decide ((a : Int) = px ∧ y ≤ b ∧ (b : Int) < y + n) && (fill || onEdge x y w h a b)) || P) =
        (img.pixel a b || (decide ((a : Int) = px ∧ y ≤ b ∧ (b : Int) < y + (n + 1 : Nat)) &&
          (fill || onEdge x y w h a b))) := by
      intro P hP
      rw [Bool.or_assoc]
      congr 1
      rw [Bool.eq_iff_iff]
      simp only [Bool.or_eq_true, Bool.and_eq_true, decide_eq_true_eq, hP]
      constructor
      · rintro (⟨⟨h1, h2, h3⟩, h4⟩ | ⟨h1, h2, h3⟩)
        · exact ⟨⟨h1, h2, by omega⟩, h4⟩
        · subst h1; rw [← h2] at h3; exact ⟨⟨rfl, by omega, by omega⟩, by simpa using h3⟩
      · rintro ⟨⟨h1, h2, h3⟩, h4⟩
        by_cases hbn : (b : Int) = y + n
        · exact .inr ⟨h1, hbn, by rw [← hbn, ← h1]; exact h4⟩
        · exact .inl ⟨⟨h1, h2, by omega⟩, h4⟩
    simp only [drawRows]
    split
    next hc =>
      rw [Image.pixel_light _ _ _ ha hb, ih]
      exact key _ (by simp only [Bool.and_eq_true, decide_eq_true_eq]; exact ⟨fun h => ⟨h.1, h.2, hc⟩, fun h => ⟨h.1, h.2.1⟩⟩)
    next hc =>
      rw [ih]
      have := key false (by simp only [Bool.false_eq_true, false_iff]; exact fun h => hc h.2.2)
      rwa [Bool.or_false] at this

/-- The outer loop lights the first `n` columns. -/
theorem pixel_drawColumns (fill : Bool) (x y : Int) (w h : Nat) (n : Nat) (img : Image)
    {a b : Nat} (ha : a < 128) (hb : b < 64) :
    (drawColumns fill x y w h n img).pixel a b =
      (img.pixel a b || (decide ((x ≤ a ∧ (a : Int) < x + n) ∧ y ≤ b ∧ (b : Int) < y + h) &&
        (fill || onEdge x y w h a b))) := by
  induction n with
  | zero =>
    have : ¬ ((x ≤ a ∧ (a : Int) < x + (0 : Nat)) ∧ y ≤ b ∧ (b : Int) < y + h) := by omega
    simp only [drawColumns, decide_eq_false this, Bool.false_and, Bool.or_false]
  | succ n ih =>
    simp only [drawColumns]
    rw [pixel_drawRows _ _ _ _ _ _ _ _ ha hb, ih, Bool.or_assoc, ← Bool.and_or_distrib_right]
    congr 2
    rw [Bool.eq_iff_iff]
    simp only [Bool.or_eq_true, decide_eq_true_eq]
    omega

/-- `FbRect` on every pixel of the buffer (R138, R139): it adds the rectangle's pixels and changes no other. -/
theorem pixel_fbRect (fill : Bool) (x y : Int) (w h : Nat) (img : Image) {a b : Nat} (ha : a < 128) (hb : b < 64) :
    (fbRect fill x y w h img).pixel a b =
      (img.pixel a b || (decide ((x ≤ a ∧ (a : Int) < x + w) ∧ y ≤ b ∧ (b : Int) < y + h) &&
        (fill || onEdge x y w h a b))) :=
  pixel_drawColumns fill x y w h w img ha hb

/-- `FbRect` in the words of R138. -/
theorem fbRect_lit (fill : Bool) (x y : Int) (w h : Nat) (img : Image) {a b : Nat} (ha : a < 128) (hb : b < 64) :
    (fbRect fill x y w h img).pixel a b = true ↔ img.pixel a b = true ∨ RectLit fill x y w h a b := by
  rw [pixel_fbRect _ _ _ _ _ _ ha hb]
  simp only [Bool.or_eq_true, Bool.and_eq_true, decide_eq_true_eq, onEdge, RectLit]
  constructor
  · rintro (h1 | ⟨h1, h2⟩)
    · exact .inl h1
    · exact .inr ⟨by omega, by tauto⟩
  · rintro (h1 | ⟨h1, h2⟩)
    · exact .inl h1
    · exact .inr ⟨by omega, by tauto⟩

end Sys2Proof.Machine
end

