-- ==== Sys2Proof/Laws/State.lean ====
section
/-! SUPPORT. One lemma for each field and each named update of the state, true by unfolding the update once. -/

namespace Sys2Proof.Machine

variable (s : State)

@[simp] theorem State.advance_ledEn (p : Phase) : (s.advance p).ledEn = s.ledEn := rfl
@[simp] theorem State.advance_green (p : Phase) : (s.advance p).green = s.green := rfl
@[simp] theorem State.advance_border (p : Phase) : (s.advance p).border = s.border := rfl
@[simp] theorem State.advance_last (p : Phase) : (s.advance p).last = s.last := rfl
@[simp] theorem State.advance_pwmX (p : Phase) : (s.advance p).pwmX = s.pwmX := rfl
@[simp] theorem State.advance_pwmY (p : Phase) : (s.advance p).pwmY = s.pwmY := rfl
@[simp] theorem State.advance_greenOut (p : Phase) : (s.advance p).greenOut = s.greenOut := rfl
@[simp] theorem State.advance_phase (p : Phase) : (s.advance p).phase = p.next := rfl
@[simp] theorem State.advance_adcSel (p : Phase) : (s.advance p).adcSel = s.adcSel := rfl
@[simp] theorem State.advance_rawX (p : Phase) : (s.advance p).rawX = s.rawX := rfl
@[simp] theorem State.advance_rawY (p : Phase) : (s.advance p).rawY = s.rawY := rfl
@[simp] theorem State.advance_dx (p : Phase) : (s.advance p).dx = s.dx := rfl
@[simp] theorem State.advance_dy (p : Phase) : (s.advance p).dy = s.dy := rfl
@[simp] theorem State.advance_cenX (p : Phase) : (s.advance p).cenX = s.cenX := rfl
@[simp] theorem State.advance_cenY (p : Phase) : (s.advance p).cenY = s.cenY := rfl
@[simp] theorem State.advance_curX (p : Phase) : (s.advance p).curX = s.curX := rfl
@[simp] theorem State.advance_curY (p : Phase) : (s.advance p).curY = s.curY := rfl
@[simp] theorem State.advance_lvlX (p : Phase) : (s.advance p).lvlX = s.lvlX := rfl
@[simp] theorem State.advance_lvlY (p : Phase) : (s.advance p).lvlY = s.lvlY := rfl
@[simp] theorem State.advance_slpT0 (p : Phase) : (s.advance p).slpT0 = s.slpT0 := rfl
@[simp] theorem State.advance_btnPrev (p : Phase) : (s.advance p).btnPrev = s.btnPrev := rfl
@[simp] theorem State.advance_irqPend (p : Phase) : (s.advance p).irqPend = s.irqPend := rfl
@[simp] theorem State.advance_timeMs (p : Phase) : (s.advance p).timeMs = s.timeMs := rfl
@[simp] theorem State.advance_fb (p : Phase) : (s.advance p).fb = s.fb := rfl
@[simp] theorem State.advance_fbHdr (p : Phase) : (s.advance p).fbHdr = s.fbHdr := rfl
@[simp] theorem State.advance_disp (p : Phase) : (s.advance p).disp = s.disp := rfl
@[simp] theorem State.advance_frames (p : Phase) : (s.advance p).frames = s.frames := rfl
@[simp] theorem State.advance_outLog (p : Phase) : (s.advance p).outLog = s.outLog := rfl
@[simp] theorem State.advance_adcLog (p : Phase) : (s.advance p).adcLog = s.adcLog := rfl
@[simp] theorem State.advance_trace (p : Phase) : (s.advance p).trace = s.trace := rfl
@[simp] theorem State.advance_draws (p : Phase) : (s.advance p).draws = s.draws := rfl
@[simp] theorem State.advance_freeCount (p : Phase) : (s.advance p).freeCount = s.freeCount := rfl
@[simp] theorem State.advance_params (p : Phase) : (s.advance p).params = s.params := rfl

@[simp] theorem State.adcSelect_ledEn (c : Channel) : (s.adcSelect c).ledEn = s.ledEn := rfl
@[simp] theorem State.adcSelect_green (c : Channel) : (s.adcSelect c).green = s.green := rfl
@[simp] theorem State.adcSelect_border (c : Channel) : (s.adcSelect c).border = s.border := rfl
@[simp] theorem State.adcSelect_last (c : Channel) : (s.adcSelect c).last = s.last := rfl
@[simp] theorem State.adcSelect_pwmX (c : Channel) : (s.adcSelect c).pwmX = s.pwmX := rfl
@[simp] theorem State.adcSelect_pwmY (c : Channel) : (s.adcSelect c).pwmY = s.pwmY := rfl
@[simp] theorem State.adcSelect_greenOut (c : Channel) : (s.adcSelect c).greenOut = s.greenOut := rfl
@[simp] theorem State.adcSelect_phase (c : Channel) : (s.adcSelect c).phase = s.phase := rfl
@[simp] theorem State.adcSelect_adcSel (c : Channel) : (s.adcSelect c).adcSel = c := rfl
@[simp] theorem State.adcSelect_rawX (c : Channel) : (s.adcSelect c).rawX = s.rawX := rfl
@[simp] theorem State.adcSelect_rawY (c : Channel) : (s.adcSelect c).rawY = s.rawY := rfl
@[simp] theorem State.adcSelect_dx (c : Channel) : (s.adcSelect c).dx = s.dx := rfl
@[simp] theorem State.adcSelect_dy (c : Channel) : (s.adcSelect c).dy = s.dy := rfl
@[simp] theorem State.adcSelect_cenX (c : Channel) : (s.adcSelect c).cenX = s.cenX := rfl
@[simp] theorem State.adcSelect_cenY (c : Channel) : (s.adcSelect c).cenY = s.cenY := rfl
@[simp] theorem State.adcSelect_curX (c : Channel) : (s.adcSelect c).curX = s.curX := rfl
@[simp] theorem State.adcSelect_curY (c : Channel) : (s.adcSelect c).curY = s.curY := rfl
@[simp] theorem State.adcSelect_lvlX (c : Channel) : (s.adcSelect c).lvlX = s.lvlX := rfl
@[simp] theorem State.adcSelect_lvlY (c : Channel) : (s.adcSelect c).lvlY = s.lvlY := rfl
@[simp] theorem State.adcSelect_slpT0 (c : Channel) : (s.adcSelect c).slpT0 = s.slpT0 := rfl
@[simp] theorem State.adcSelect_btnPrev (c : Channel) : (s.adcSelect c).btnPrev = s.btnPrev := rfl
@[simp] theorem State.adcSelect_irqPend (c : Channel) : (s.adcSelect c).irqPend = s.irqPend := rfl
@[simp] theorem State.adcSelect_timeMs (c : Channel) : (s.adcSelect c).timeMs = s.timeMs := rfl
@[simp] theorem State.adcSelect_fb (c : Channel) : (s.adcSelect c).fb = s.fb := rfl
@[simp] theorem State.adcSelect_fbHdr (c : Channel) : (s.adcSelect c).fbHdr = s.fbHdr := rfl
@[simp] theorem State.adcSelect_disp (c : Channel) : (s.adcSelect c).disp = s.disp := rfl
@[simp] theorem State.adcSelect_frames (c : Channel) : (s.adcSelect c).frames = s.frames := rfl
@[simp] theorem State.adcSelect_outLog (c : Channel) : (s.adcSelect c).outLog = s.outLog := rfl
@[simp] theorem State.adcSelect_adcLog (c : Channel) : (s.adcSelect c).adcLog = s.adcLog ++ [.select c] := rfl
@[simp] theorem State.adcSelect_trace (c : Channel) : (s.adcSelect c).trace = s.trace := rfl
@[simp] theorem State.adcSelect_draws (c : Channel) : (s.adcSelect c).draws = s.draws := rfl
@[simp] theorem State.adcSelect_freeCount (c : Channel) : (s.adcSelect c).freeCount = s.freeCount := rfl
@[simp] theorem State.adcSelect_params (c : Channel) : (s.adcSelect c).params = s.params := rfl

@[simp] theorem State.adcDone_ledEn : s.adcDone.ledEn = s.ledEn := rfl
@[simp] theorem State.adcDone_green : s.adcDone.green = s.green := rfl
@[simp] theorem State.adcDone_border : s.adcDone.border = s.border := rfl
@[simp] theorem State.adcDone_last : s.adcDone.last = s.last := rfl
@[simp] theorem State.adcDone_pwmX : s.adcDone.pwmX = s.pwmX := rfl
@[simp] theorem State.adcDone_pwmY : s.adcDone.pwmY = s.pwmY := rfl
@[simp] theorem State.adcDone_greenOut : s.adcDone.greenOut = s.greenOut := rfl
@[simp] theorem State.adcDone_phase : s.adcDone.phase = s.phase := rfl
@[simp] theorem State.adcDone_adcSel : s.adcDone.adcSel = s.adcSel := rfl
@[simp] theorem State.adcDone_rawX : s.adcDone.rawX = s.rawX := rfl
@[simp] theorem State.adcDone_rawY : s.adcDone.rawY = s.rawY := rfl
@[simp] theorem State.adcDone_dx : s.adcDone.dx = s.dx := rfl
@[simp] theorem State.adcDone_dy : s.adcDone.dy = s.dy := rfl
@[simp] theorem State.adcDone_cenX : s.adcDone.cenX = s.cenX := rfl
@[simp] theorem State.adcDone_cenY : s.adcDone.cenY = s.cenY := rfl
@[simp] theorem State.adcDone_curX : s.adcDone.curX = s.curX := rfl
@[simp] theorem State.adcDone_curY : s.adcDone.curY = s.curY := rfl
@[simp] theorem State.adcDone_lvlX : s.adcDone.lvlX = s.lvlX := rfl
@[simp] theorem State.adcDone_lvlY : s.adcDone.lvlY = s.lvlY := rfl
@[simp] theorem State.adcDone_slpT0 : s.adcDone.slpT0 = s.slpT0 := rfl
@[simp] theorem State.adcDone_btnPrev : s.adcDone.btnPrev = s.btnPrev := rfl
@[simp] theorem State.adcDone_irqPend : s.adcDone.irqPend = s.irqPend := rfl
@[simp] theorem State.adcDone_timeMs : s.adcDone.timeMs = s.timeMs := rfl
@[simp] theorem State.adcDone_fb : s.adcDone.fb = s.fb := rfl
@[simp] theorem State.adcDone_fbHdr : s.adcDone.fbHdr = s.fbHdr := rfl
@[simp] theorem State.adcDone_disp : s.adcDone.disp = s.disp := rfl
@[simp] theorem State.adcDone_frames : s.adcDone.frames = s.frames := rfl
@[simp] theorem State.adcDone_outLog : s.adcDone.outLog = s.outLog := rfl
@[simp] theorem State.adcDone_adcLog : s.adcDone.adcLog = s.adcLog ++ [.read s.adcSel s.adcSample] := rfl
@[simp] theorem State.adcDone_trace : s.adcDone.trace = s.trace := rfl
@[simp] theorem State.adcDone_draws : s.adcDone.draws = s.draws.tail := rfl
@[simp] theorem State.adcDone_freeCount : s.adcDone.freeCount = s.freeCount + 1 := rfl
@[simp] theorem State.adcDone_params : s.adcDone.params = s.params := rfl

@[simp] theorem State.outWrite_x_ledEn (v : Level) : (s.outWrite (.pwmX v)).ledEn = s.ledEn := rfl
@[simp] theorem State.outWrite_x_green (v : Level) : (s.outWrite (.pwmX v)).green = s.green := rfl
@[simp] theorem State.outWrite_x_border (v : Level) : (s.outWrite (.pwmX v)).border = s.border := rfl
@[simp] theorem State.outWrite_x_last (v : Level) : (s.outWrite (.pwmX v)).last = s.last := rfl
@[simp] theorem State.outWrite_x_pwmX (v : Level) : (s.outWrite (.pwmX v)).pwmX = v := rfl
@[simp] theorem State.outWrite_x_pwmY (v : Level) : (s.outWrite (.pwmX v)).pwmY = s.pwmY := rfl
@[simp] theorem State.outWrite_x_greenOut (v : Level) : (s.outWrite (.pwmX v)).greenOut = s.greenOut := rfl
@[simp] theorem State.outWrite_x_phase (v : Level) : (s.outWrite (.pwmX v)).phase = s.phase := rfl
@[simp] theorem State.outWrite_x_adcSel (v : Level) : (s.outWrite (.pwmX v)).adcSel = s.adcSel := rfl
@[simp] theorem State.outWrite_x_rawX (v : Level) : (s.outWrite (.pwmX v)).rawX = s.rawX := rfl
@[simp] theorem State.outWrite_x_rawY (v : Level) : (s.outWrite (.pwmX v)).rawY = s.rawY := rfl
@[simp] theorem State.outWrite_x_dx (v : Level) : (s.outWrite (.pwmX v)).dx = s.dx := rfl
@[simp] theorem State.outWrite_x_dy (v : Level) : (s.outWrite (.pwmX v)).dy = s.dy := rfl
@[simp] theorem State.outWrite_x_cenX (v : Level) : (s.outWrite (.pwmX v)).cenX = s.cenX := rfl
@[simp] theorem State.outWrite_x_cenY (v : Level) : (s.outWrite (.pwmX v)).cenY = s.cenY := rfl
@[simp] theorem State.outWrite_x_curX (v : Level) : (s.outWrite (.pwmX v)).curX = s.curX := rfl
@[simp] theorem State.outWrite_x_curY (v : Level) : (s.outWrite (.pwmX v)).curY = s.curY := rfl
@[simp] theorem State.outWrite_x_lvlX (v : Level) : (s.outWrite (.pwmX v)).lvlX = s.lvlX := rfl
@[simp] theorem State.outWrite_x_lvlY (v : Level) : (s.outWrite (.pwmX v)).lvlY = s.lvlY := rfl
@[simp] theorem State.outWrite_x_slpT0 (v : Level) : (s.outWrite (.pwmX v)).slpT0 = s.slpT0 := rfl
@[simp] theorem State.outWrite_x_btnPrev (v : Level) : (s.outWrite (.pwmX v)).btnPrev = s.btnPrev := rfl
@[simp] theorem State.outWrite_x_irqPend (v : Level) : (s.outWrite (.pwmX v)).irqPend = s.irqPend := rfl
@[simp] theorem State.outWrite_x_timeMs (v : Level) : (s.outWrite (.pwmX v)).timeMs = s.timeMs := rfl
@[simp] theorem State.outWrite_x_fb (v : Level) : (s.outWrite (.pwmX v)).fb = s.fb := rfl
@[simp] theorem State.outWrite_x_fbHdr (v : Level) : (s.outWrite (.pwmX v)).fbHdr = s.fbHdr := rfl
@[simp] theorem State.outWrite_x_disp (v : Level) : (s.outWrite (.pwmX v)).disp = s.disp := rfl
@[simp] theorem State.outWrite_x_frames (v : Level) : (s.outWrite (.pwmX v)).frames = s.frames := rfl
@[simp] theorem State.outWrite_x_outLog (v : Level) : (s.outWrite (.pwmX v)).outLog = s.outLog ++ [.pwmX v] := rfl
@[simp] theorem State.outWrite_x_adcLog (v : Level) : (s.outWrite (.pwmX v)).adcLog = s.adcLog := rfl
@[simp] theorem State.outWrite_x_trace (v : Level) : (s.outWrite (.pwmX v)).trace = s.trace := rfl
@[simp] theorem State.outWrite_x_draws (v : Level) : (s.outWrite (.pwmX v)).draws = s.draws := rfl
@[simp] theorem State.outWrite_x_freeCount (v : Level) : (s.outWrite (.pwmX v)).freeCount = s.freeCount := rfl
@[simp] theorem State.outWrite_x_params (v : Level) : (s.outWrite (.pwmX v)).params = s.params := rfl

@[simp] theorem State.outWrite_y_ledEn (v : Level) : (s.outWrite (.pwmY v)).ledEn = s.ledEn := rfl
@[simp] theorem State.outWrite_y_green (v : Level) : (s.outWrite (.pwmY v)).green = s.green := rfl
@[simp] theorem State.outWrite_y_border (v : Level) : (s.outWrite (.pwmY v)).border = s.border := rfl
@[simp] theorem State.outWrite_y_last (v : Level) : (s.outWrite (.pwmY v)).last = s.last := rfl
@[simp] theorem State.outWrite_y_pwmX (v : Level) : (s.outWrite (.pwmY v)).pwmX = s.pwmX := rfl
@[simp] theorem State.outWrite_y_pwmY (v : Level) : (s.outWrite (.pwmY v)).pwmY = v := rfl
@[simp] theorem State.outWrite_y_greenOut (v : Level) : (s.outWrite (.pwmY v)).greenOut = s.greenOut := rfl
@[simp] theorem State.outWrite_y_phase (v : Level) : (s.outWrite (.pwmY v)).phase = s.phase := rfl
@[simp] theorem State.outWrite_y_adcSel (v : Level) : (s.outWrite (.pwmY v)).adcSel = s.adcSel := rfl
@[simp] theorem State.outWrite_y_rawX (v : Level) : (s.outWrite (.pwmY v)).rawX = s.rawX := rfl
@[simp] theorem State.outWrite_y_rawY (v : Level) : (s.outWrite (.pwmY v)).rawY = s.rawY := rfl
@[simp] theorem State.outWrite_y_dx (v : Level) : (s.outWrite (.pwmY v)).dx = s.dx := rfl
@[simp] theorem State.outWrite_y_dy (v : Level) : (s.outWrite (.pwmY v)).dy = s.dy := rfl
@[simp] theorem State.outWrite_y_cenX (v : Level) : (s.outWrite (.pwmY v)).cenX = s.cenX := rfl
@[simp] theorem State.outWrite_y_cenY (v : Level) : (s.outWrite (.pwmY v)).cenY = s.cenY := rfl
@[simp] theorem State.outWrite_y_curX (v : Level) : (s.outWrite (.pwmY v)).curX = s.curX := rfl
@[simp] theorem State.outWrite_y_curY (v : Level) : (s.outWrite (.pwmY v)).curY = s.curY := rfl
@[simp] theorem State.outWrite_y_lvlX (v : Level) : (s.outWrite (.pwmY v)).lvlX = s.lvlX := rfl
@[simp] theorem State.outWrite_y_lvlY (v : Level) : (s.outWrite (.pwmY v)).lvlY = s.lvlY := rfl
@[simp] theorem State.outWrite_y_slpT0 (v : Level) : (s.outWrite (.pwmY v)).slpT0 = s.slpT0 := rfl
@[simp] theorem State.outWrite_y_btnPrev (v : Level) : (s.outWrite (.pwmY v)).btnPrev = s.btnPrev := rfl
@[simp] theorem State.outWrite_y_irqPend (v : Level) : (s.outWrite (.pwmY v)).irqPend = s.irqPend := rfl
@[simp] theorem State.outWrite_y_timeMs (v : Level) : (s.outWrite (.pwmY v)).timeMs = s.timeMs := rfl
@[simp] theorem State.outWrite_y_fb (v : Level) : (s.outWrite (.pwmY v)).fb = s.fb := rfl
@[simp] theorem State.outWrite_y_fbHdr (v : Level) : (s.outWrite (.pwmY v)).fbHdr = s.fbHdr := rfl
@[simp] theorem State.outWrite_y_disp (v : Level) : (s.outWrite (.pwmY v)).disp = s.disp := rfl
@[simp] theorem State.outWrite_y_frames (v : Level) : (s.outWrite (.pwmY v)).frames = s.frames := rfl
@[simp] theorem State.outWrite_y_outLog (v : Level) : (s.outWrite (.pwmY v)).outLog = s.outLog ++ [.pwmY v] := rfl
@[simp] theorem State.outWrite_y_adcLog (v : Level) : (s.outWrite (.pwmY v)).adcLog = s.adcLog := rfl
@[simp] theorem State.outWrite_y_trace (v : Level) : (s.outWrite (.pwmY v)).trace = s.trace := rfl
@[simp] theorem State.outWrite_y_draws (v : Level) : (s.outWrite (.pwmY v)).draws = s.draws := rfl
@[simp] theorem State.outWrite_y_freeCount (v : Level) : (s.outWrite (.pwmY v)).freeCount = s.freeCount := rfl
@[simp] theorem State.outWrite_y_params (v : Level) : (s.outWrite (.pwmY v)).params = s.params := rfl

@[simp] theorem State.outWrite_green_ledEn (b : Bool) : (s.outWrite (.green b)).ledEn = s.ledEn := rfl
@[simp] theorem State.outWrite_green_green (b : Bool) : (s.outWrite (.green b)).green = s.green := rfl
@[simp] theorem State.outWrite_green_border (b : Bool) : (s.outWrite (.green b)).border = s.border := rfl
@[simp] theorem State.outWrite_green_last (b : Bool) : (s.outWrite (.green b)).last = s.last := rfl
@[simp] theorem State.outWrite_green_pwmX (b : Bool) : (s.outWrite (.green b)).pwmX = s.pwmX := rfl
@[simp] theorem State.outWrite_green_pwmY (b : Bool) : (s.outWrite (.green b)).pwmY = s.pwmY := rfl
@[simp] theorem State.outWrite_green_greenOut (b : Bool) : (s.outWrite (.green b)).greenOut = b := rfl
@[simp] theorem State.outWrite_green_phase (b : Bool) : (s.outWrite (.green b)).phase = s.phase := rfl
@[simp] theorem State.outWrite_green_adcSel (b : Bool) : (s.outWrite (.green b)).adcSel = s.adcSel := rfl
@[simp] theorem State.outWrite_green_rawX (b : Bool) : (s.outWrite (.green b)).rawX = s.rawX := rfl
@[simp] theorem State.outWrite_green_rawY (b : Bool) : (s.outWrite (.green b)).rawY = s.rawY := rfl
@[simp] theorem State.outWrite_green_dx (b : Bool) : (s.outWrite (.green b)).dx = s.dx := rfl
@[simp] theorem State.outWrite_green_dy (b : Bool) : (s.outWrite (.green b)).dy = s.dy := rfl
@[simp] theorem State.outWrite_green_cenX (b : Bool) : (s.outWrite (.green b)).cenX = s.cenX := rfl
@[simp] theorem State.outWrite_green_cenY (b : Bool) : (s.outWrite (.green b)).cenY = s.cenY := rfl
@[simp] theorem State.outWrite_green_curX (b : Bool) : (s.outWrite (.green b)).curX = s.curX := rfl
@[simp] theorem State.outWrite_green_curY (b : Bool) : (s.outWrite (.green b)).curY = s.curY := rfl
@[simp] theorem State.outWrite_green_lvlX (b : Bool) : (s.outWrite (.green b)).lvlX = s.lvlX := rfl
@[simp] theorem State.outWrite_green_lvlY (b : Bool) : (s.outWrite (.green b)).lvlY = s.lvlY := rfl
@[simp] theorem State.outWrite_green_slpT0 (b : Bool) : (s.outWrite (.green b)).slpT0 = s.slpT0 := rfl
@[simp] theorem State.outWrite_green_btnPrev (b : Bool) : (s.outWrite (.green b)).btnPrev = s.btnPrev := rfl
@[simp] theorem State.outWrite_green_irqPend (b : Bool) : (s.outWrite (.green b)).irqPend = s.irqPend := rfl
@[simp] theorem State.outWrite_green_timeMs (b : Bool) : (s.outWrite (.green b)).timeMs = s.timeMs := rfl
@[simp] theorem State.outWrite_green_fb (b : Bool) : (s.outWrite (.green b)).fb = s.fb := rfl
@[simp] theorem State.outWrite_green_fbHdr (b : Bool) : (s.outWrite (.green b)).fbHdr = s.fbHdr := rfl
@[simp] theorem State.outWrite_green_disp (b : Bool) : (s.outWrite (.green b)).disp = s.disp := rfl
@[simp] theorem State.outWrite_green_frames (b : Bool) : (s.outWrite (.green b)).frames = s.frames := rfl
@[simp] theorem State.outWrite_green_outLog (b : Bool) : (s.outWrite (.green b)).outLog = s.outLog ++ [.green b] := rfl
@[simp] theorem State.outWrite_green_adcLog (b : Bool) : (s.outWrite (.green b)).adcLog = s.adcLog := rfl
@[simp] theorem State.outWrite_green_trace (b : Bool) : (s.outWrite (.green b)).trace = s.trace := rfl
@[simp] theorem State.outWrite_green_draws (b : Bool) : (s.outWrite (.green b)).draws = s.draws := rfl
@[simp] theorem State.outWrite_green_freeCount (b : Bool) : (s.outWrite (.green b)).freeCount = s.freeCount := rfl
@[simp] theorem State.outWrite_green_params (b : Bool) : (s.outWrite (.green b)).params = s.params := rfl

@[simp] theorem State.runClear_ledEn : (s.runCommand .clear).ledEn = s.ledEn := rfl
@[simp] theorem State.runClear_green : (s.runCommand .clear).green = s.green := rfl
@[simp] theorem State.runClear_border : (s.runCommand .clear).border = s.border := rfl
@[simp] theorem State.runClear_last : (s.runCommand .clear).last = s.last := rfl
@[simp] theorem State.runClear_pwmX : (s.runCommand .clear).pwmX = s.pwmX := rfl
@[simp] theorem State.runClear_pwmY : (s.runCommand .clear).pwmY = s.pwmY := rfl
@[simp] theorem State.runClear_greenOut : (s.runCommand .clear).greenOut = s.greenOut := rfl
@[simp] theorem State.runClear_phase : (s.runCommand .clear).phase = s.phase := rfl
@[simp] theorem State.runClear_adcSel : (s.runCommand .clear).adcSel = s.adcSel := rfl
@[simp] theorem State.runClear_rawX : (s.runCommand .clear).rawX = s.rawX := rfl
@[simp] theorem State.runClear_rawY : (s.runCommand .clear).rawY = s.rawY := rfl
@[simp] theorem State.runClear_dx : (s.runCommand .clear).dx = s.dx := rfl
@[simp] theorem State.runClear_dy : (s.runCommand .clear).dy = s.dy := rfl
@[simp] theorem State.runClear_cenX : (s.runCommand .clear).cenX = s.cenX := rfl
@[simp] theorem State.runClear_cenY : (s.runCommand .clear).cenY = s.cenY := rfl
@[simp] theorem State.runClear_curX : (s.runCommand .clear).curX = s.curX := rfl
@[simp] theorem State.runClear_curY : (s.runCommand .clear).curY = s.curY := rfl
@[simp] theorem State.runClear_lvlX : (s.runCommand .clear).lvlX = s.lvlX := rfl
@[simp] theorem State.runClear_lvlY : (s.runCommand .clear).lvlY = s.lvlY := rfl
@[simp] theorem State.runClear_slpT0 : (s.runCommand .clear).slpT0 = s.slpT0 := rfl
@[simp] theorem State.runClear_btnPrev : (s.runCommand .clear).btnPrev = s.btnPrev := rfl
@[simp] theorem State.runClear_irqPend : (s.runCommand .clear).irqPend = s.irqPend := rfl
@[simp] theorem State.runClear_timeMs : (s.runCommand .clear).timeMs = s.timeMs := rfl
@[simp] theorem State.runClear_fb : (s.runCommand .clear).fb = fbClear := rfl
@[simp] theorem State.runClear_fbHdr : (s.runCommand .clear).fbHdr = s.fbHdr := rfl
@[simp] theorem State.runClear_disp : (s.runCommand .clear).disp = s.disp := rfl
@[simp] theorem State.runClear_frames : (s.runCommand .clear).frames = s.frames := rfl
@[simp] theorem State.runClear_outLog : (s.runCommand .clear).outLog = s.outLog := rfl
@[simp] theorem State.runClear_adcLog : (s.runCommand .clear).adcLog = s.adcLog := rfl
@[simp] theorem State.runClear_trace : (s.runCommand .clear).trace = s.trace := rfl
@[simp] theorem State.runClear_draws : (s.runCommand .clear).draws = s.draws := rfl
@[simp] theorem State.runClear_freeCount : (s.runCommand .clear).freeCount = s.freeCount := rfl
@[simp] theorem State.runClear_params : (s.runCommand .clear).params = s.params := rfl

@[simp] theorem State.runRect_ledEn (f : Bool) (x y : Int) (w h : Nat) : (s.runCommand (.rect f x y w h)).ledEn = s.ledEn := rfl
@[simp] theorem State.runRect_green (f : Bool) (x y : Int) (w h : Nat) : (s.runCommand (.rect f x y w h)).green = s.green := rfl
@[simp] theorem State.runRect_border (f : Bool) (x y : Int) (w h : Nat) : (s.runCommand (.rect f x y w h)).border = s.border := rfl
@[simp] theorem State.runRect_last (f : Bool) (x y : Int) (w h : Nat) : (s.runCommand (.rect f x y w h)).last = s.last := rfl
@[simp] theorem State.runRect_pwmX (f : Bool) (x y : Int) (w h : Nat) : (s.runCommand (.rect f x y w h)).pwmX = s.pwmX := rfl
@[simp] theorem State.runRect_pwmY (f : Bool) (x y : Int) (w h : Nat) : (s.runCommand (.rect f x y w h)).pwmY = s.pwmY := rfl
@[simp] theorem State.runRect_greenOut (f : Bool) (x y : Int) (w h : Nat) : (s.runCommand (.rect f x y w h)).greenOut = s.greenOut := rfl
@[simp] theorem State.runRect_phase (f : Bool) (x y : Int) (w h : Nat) : (s.runCommand (.rect f x y w h)).phase = s.phase := rfl
@[simp] theorem State.runRect_adcSel (f : Bool) (x y : Int) (w h : Nat) : (s.runCommand (.rect f x y w h)).adcSel = s.adcSel := rfl
@[simp] theorem State.runRect_rawX (f : Bool) (x y : Int) (w h : Nat) : (s.runCommand (.rect f x y w h)).rawX = s.rawX := rfl
@[simp] theorem State.runRect_rawY (f : Bool) (x y : Int) (w h : Nat) : (s.runCommand (.rect f x y w h)).rawY = s.rawY := rfl
@[simp] theorem State.runRect_dx (f : Bool) (x y : Int) (w h : Nat) : (s.runCommand (.rect f x y w h)).dx = s.dx := rfl
@[simp] theorem State.runRect_dy (f : Bool) (x y : Int) (w h : Nat) : (s.runCommand (.rect f x y w h)).dy = s.dy := rfl
@[simp] theorem State.runRect_cenX (f : Bool) (x y : Int) (w h : Nat) : (s.runCommand (.rect f x y w h)).cenX = s.cenX := rfl
@[simp] theorem State.runRect_cenY (f : Bool) (x y : Int) (w h : Nat) : (s.runCommand (.rect f x y w h)).cenY = s.cenY := rfl
@[simp] theorem State.runRect_curX (f : Bool) (x y : Int) (w h : Nat) : (s.runCommand (.rect f x y w h)).curX = s.curX := rfl
@[simp] theorem State.runRect_curY (f : Bool) (x y : Int) (w h : Nat) : (s.runCommand (.rect f x y w h)).curY = s.curY := rfl
@[simp] theorem State.runRect_lvlX (f : Bool) (x y : Int) (w h : Nat) : (s.runCommand (.rect f x y w h)).lvlX = s.lvlX := rfl
@[simp] theorem State.runRect_lvlY (f : Bool) (x y : Int) (w h : Nat) : (s.runCommand (.rect f x y w h)).lvlY = s.lvlY := rfl
@[simp] theorem State.runRect_slpT0 (f : Bool) (x y : Int) (w h : Nat) : (s.runCommand (.rect f x y w h)).slpT0 = s.slpT0 := rfl
@[simp] theorem State.runRect_btnPrev (f : Bool) (x y : Int) (w h : Nat) : (s.runCommand (.rect f x y w h)).btnPrev = s.btnPrev := rfl
@[simp] theorem State.runRect_irqPend (f : Bool) (x y : Int) (w h : Nat) : (s.runCommand (.rect f x y w h)).irqPend = s.irqPend := rfl
@[simp] theorem State.runRect_timeMs (f : Bool) (x y : Int) (w h : Nat) : (s.runCommand (.rect f x y w h)).timeMs = s.timeMs := rfl
@[simp] theorem State.runRect_fb (f : Bool) (x y : Int) (w h : Nat) : (s.runCommand (.rect f x y w h)).fb = fbRect f x y w h s.fb := rfl
@[simp] theorem State.runRect_fbHdr (f : Bool) (x y : Int) (w h : Nat) : (s.runCommand (.rect f x y w h)).fbHdr = s.fbHdr := rfl
@[simp] theorem State.runRect_disp (f : Bool) (x y : Int) (w h : Nat) : (s.runCommand (.rect f x y w h)).disp = s.disp := rfl
@[simp] theorem State.runRect_frames (f : Bool) (x y : Int) (w h : Nat) : (s.runCommand (.rect f x y w h)).frames = s.frames := rfl
@[simp] theorem State.runRect_outLog (f : Bool) (x y : Int) (w h : Nat) : (s.runCommand (.rect f x y w h)).outLog = s.outLog := rfl
@[simp] theorem State.runRect_adcLog (f : Bool) (x y : Int) (w h : Nat) : (s.runCommand (.rect f x y w h)).adcLog = s.adcLog := rfl
@[simp] theorem State.runRect_trace (f : Bool) (x y : Int) (w h : Nat) : (s.runCommand (.rect f x y w h)).trace = s.trace := rfl
@[simp] theorem State.runRect_draws (f : Bool) (x y : Int) (w h : Nat) : (s.runCommand (.rect f x y w h)).draws = s.draws := rfl
@[simp] theorem State.runRect_freeCount (f : Bool) (x y : Int) (w h : Nat) : (s.runCommand (.rect f x y w h)).freeCount = s.freeCount := rfl
@[simp] theorem State.runRect_params (f : Bool) (x y : Int) (w h : Nat) : (s.runCommand (.rect f x y w h)).params = s.params := rfl

@[simp] theorem State.runFlush_ledEn : (s.runCommand .flush).ledEn = s.ledEn := rfl
@[simp] theorem State.runFlush_green : (s.runCommand .flush).green = s.green := rfl
@[simp] theorem State.runFlush_border : (s.runCommand .flush).border = s.border := rfl
@[simp] theorem State.runFlush_last : (s.runCommand .flush).last = s.last := rfl
@[simp] theorem State.runFlush_pwmX : (s.runCommand .flush).pwmX = s.pwmX := rfl
@[simp] theorem State.runFlush_pwmY : (s.runCommand .flush).pwmY = s.pwmY := rfl
@[simp] theorem State.runFlush_greenOut : (s.runCommand .flush).greenOut = s.greenOut := rfl
@[simp] theorem State.runFlush_phase : (s.runCommand .flush).phase = s.phase := rfl
@[simp] theorem State.runFlush_adcSel : (s.runCommand .flush).adcSel = s.adcSel := rfl
@[simp] theorem State.runFlush_rawX : (s.runCommand .flush).rawX = s.rawX := rfl
@[simp] theorem State.runFlush_rawY : (s.runCommand .flush).rawY = s.rawY := rfl
@[simp] theorem State.runFlush_dx : (s.runCommand .flush).dx = s.dx := rfl
@[simp] theorem State.runFlush_dy : (s.runCommand .flush).dy = s.dy := rfl
@[simp] theorem State.runFlush_cenX : (s.runCommand .flush).cenX = s.cenX := rfl
@[simp] theorem State.runFlush_cenY : (s.runCommand .flush).cenY = s.cenY := rfl
@[simp] theorem State.runFlush_curX : (s.runCommand .flush).curX = s.curX := rfl
@[simp] theorem State.runFlush_curY : (s.runCommand .flush).curY = s.curY := rfl
@[simp] theorem State.runFlush_lvlX : (s.runCommand .flush).lvlX = s.lvlX := rfl
@[simp] theorem State.runFlush_lvlY : (s.runCommand .flush).lvlY = s.lvlY := rfl
@[simp] theorem State.runFlush_slpT0 : (s.runCommand .flush).slpT0 = s.slpT0 := rfl
@[simp] theorem State.runFlush_btnPrev : (s.runCommand .flush).btnPrev = s.btnPrev := rfl
@[simp] theorem State.runFlush_irqPend : (s.runCommand .flush).irqPend = s.irqPend := rfl
@[simp] theorem State.runFlush_timeMs : (s.runCommand .flush).timeMs = s.timeMs := rfl
@[simp] theorem State.runFlush_fb : (s.runCommand .flush).fb = s.fb := rfl
@[simp] theorem State.runFlush_fbHdr : (s.runCommand .flush).fbHdr = s.fbHdr := rfl
@[simp] theorem State.runFlush_disp : (s.runCommand .flush).disp = s.fb := rfl
@[simp] theorem State.runFlush_frames : (s.runCommand .flush).frames = s.frames ++ [s.fb] := rfl
@[simp] theorem State.runFlush_outLog : (s.runCommand .flush).outLog = s.outLog := rfl
@[simp] theorem State.runFlush_adcLog : (s.runCommand .flush).adcLog = s.adcLog := rfl
@[simp] theorem State.runFlush_trace : (s.runCommand .flush).trace = s.trace := rfl
@[simp] theorem State.runFlush_draws : (s.runCommand .flush).draws = s.draws := rfl
@[simp] theorem State.runFlush_freeCount : (s.runCommand .flush).freeCount = s.freeCount := rfl
@[simp] theorem State.runFlush_params : (s.runCommand .flush).params = s.params := rfl

@[simp] theorem State.interruptEntry_ledEn (l : Line) : (s.interruptEntry l).ledEn = s.ledEn := rfl
@[simp] theorem State.interruptEntry_green (l : Line) : (s.interruptEntry l).green = s.green := rfl
@[simp] theorem State.interruptEntry_border (l : Line) : (s.interruptEntry l).border = s.border := rfl
@[simp] theorem State.interruptEntry_last (l : Line) : (s.interruptEntry l).last = s.last := rfl
@[simp] theorem State.interruptEntry_pwmX (l : Line) : (s.interruptEntry l).pwmX = s.pwmX := rfl
@[simp] theorem State.interruptEntry_pwmY (l : Line) : (s.interruptEntry l).pwmY = s.pwmY := rfl
@[simp] theorem State.interruptEntry_greenOut (l : Line) : (s.interruptEntry l).greenOut = s.greenOut := rfl
@[simp] theorem State.interruptEntry_phase (l : Line) : (s.interruptEntry l).phase = s.phase := rfl
@[simp] theorem State.interruptEntry_adcSel (l : Line) : (s.interruptEntry l).adcSel = s.adcSel := rfl
@[simp] theorem State.interruptEntry_rawX (l : Line) : (s.interruptEntry l).rawX = s.rawX := rfl
@[simp] theorem State.interruptEntry_rawY (l : Line) : (s.interruptEntry l).rawY = s.rawY := rfl
@[simp] theorem State.interruptEntry_dx (l : Line) : (s.interruptEntry l).dx = s.dx := rfl
@[simp] theorem State.interruptEntry_dy (l : Line) : (s.interruptEntry l).dy = s.dy := rfl
@[simp] theorem State.interruptEntry_cenX (l : Line) : (s.interruptEntry l).cenX = s.cenX := rfl
@[simp] theorem State.interruptEntry_cenY (l : Line) : (s.interruptEntry l).cenY = s.cenY := rfl
@[simp] theorem State.interruptEntry_curX (l : Line) : (s.interruptEntry l).curX = s.curX := rfl
@[simp] theorem State.interruptEntry_curY (l : Line) : (s.interruptEntry l).curY = s.curY := rfl
@[simp] theorem State.interruptEntry_lvlX (l : Line) : (s.interruptEntry l).lvlX = s.lvlX := rfl
@[simp] theorem State.interruptEntry_lvlY (l : Line) : (s.interruptEntry l).lvlY = s.lvlY := rfl
@[simp] theorem State.interruptEntry_slpT0 (l : Line) : (s.interruptEntry l).slpT0 = s.slpT0 := rfl
@[simp] theorem State.interruptEntry_btnPrev (l : Line) : (s.interruptEntry l).btnPrev = s.btnPrev := rfl
@[simp] theorem State.interruptEntry_irqPend (l : Line) : (s.interruptEntry l).irqPend = s.irqPend.set l false := rfl
@[simp] theorem State.interruptEntry_timeMs (l : Line) : (s.interruptEntry l).timeMs = s.timeMs := rfl
@[simp] theorem State.interruptEntry_fb (l : Line) : (s.interruptEntry l).fb = s.fb := rfl
@[simp] theorem State.interruptEntry_fbHdr (l : Line) : (s.interruptEntry l).fbHdr = s.fbHdr := rfl
@[simp] theorem State.interruptEntry_disp (l : Line) : (s.interruptEntry l).disp = s.disp := rfl
@[simp] theorem State.interruptEntry_frames (l : Line) : (s.interruptEntry l).frames = s.frames := rfl
@[simp] theorem State.interruptEntry_outLog (l : Line) : (s.interruptEntry l).outLog = s.outLog := rfl
@[simp] theorem State.interruptEntry_adcLog (l : Line) : (s.interruptEntry l).adcLog = s.adcLog := rfl
@[simp] theorem State.interruptEntry_trace (l : Line) : (s.interruptEntry l).trace = s.trace := rfl
@[simp] theorem State.interruptEntry_draws (l : Line) : (s.interruptEntry l).draws = s.draws := rfl
@[simp] theorem State.interruptEntry_freeCount (l : Line) : (s.interruptEntry l).freeCount = s.freeCount := rfl
@[simp] theorem State.interruptEntry_params (l : Line) : (s.interruptEntry l).params = s.params := rfl

@[simp] theorem State.sampleLines_ledEn (a j : Bool) : (s.sampleLines a j).ledEn = s.ledEn := rfl
@[simp] theorem State.sampleLines_green (a j : Bool) : (s.sampleLines a j).green = s.green := rfl
@[simp] theorem State.sampleLines_border (a j : Bool) : (s.sampleLines a j).border = s.border := rfl
@[simp] theorem State.sampleLines_last (a j : Bool) : (s.sampleLines a j).last = s.last := rfl
@[simp] theorem State.sampleLines_pwmX (a j : Bool) : (s.sampleLines a j).pwmX = s.pwmX := rfl
@[simp] theorem State.sampleLines_pwmY (a j : Bool) : (s.sampleLines a j).pwmY = s.pwmY := rfl
@[simp] theorem State.sampleLines_greenOut (a j : Bool) : (s.sampleLines a j).greenOut = s.greenOut := rfl
@[simp] theorem State.sampleLines_phase (a j : Bool) : (s.sampleLines a j).phase = s.phase := rfl
@[simp] theorem State.sampleLines_adcSel (a j : Bool) : (s.sampleLines a j).adcSel = s.adcSel := rfl
@[simp] theorem State.sampleLines_rawX (a j : Bool) : (s.sampleLines a j).rawX = s.rawX := rfl
@[simp] theorem State.sampleLines_rawY (a j : Bool) : (s.sampleLines a j).rawY = s.rawY := rfl
@[simp] theorem State.sampleLines_dx (a j : Bool) : (s.sampleLines a j).dx = s.dx := rfl
@[simp] theorem State.sampleLines_dy (a j : Bool) : (s.sampleLines a j).dy = s.dy := rfl
@[simp] theorem State.sampleLines_cenX (a j : Bool) : (s.sampleLines a j).cenX = s.cenX := rfl
@[simp] theorem State.sampleLines_cenY (a j : Bool) : (s.sampleLines a j).cenY = s.cenY := rfl
@[simp] theorem State.sampleLines_curX (a j : Bool) : (s.sampleLines a j).curX = s.curX := rfl
@[simp] theorem State.sampleLines_curY (a j : Bool) : (s.sampleLines a j).curY = s.curY := rfl
@[simp] theorem State.sampleLines_lvlX (a j : Bool) : (s.sampleLines a j).lvlX = s.lvlX := rfl
@[simp] theorem State.sampleLines_lvlY (a j : Bool) : (s.sampleLines a j).lvlY = s.lvlY := rfl
@[simp] theorem State.sampleLines_slpT0 (a j : Bool) : (s.sampleLines a j).slpT0 = s.slpT0 := rfl
@[simp] theorem State.sampleLines_btnPrev (a j : Bool) : (s.sampleLines a j).btnPrev = ⟨a, j⟩ := rfl
@[simp] theorem State.sampleLines_irqPend (a j : Bool) : (s.sampleLines a j).irqPend = ⟨s.irqPend.a || (s.btnPrev.a && !a), s.irqPend.j || (s.btnPrev.j && !j)⟩ := rfl
@[simp] theorem State.sampleLines_timeMs (a j : Bool) : (s.sampleLines a j).timeMs = s.timeMs := rfl
@[simp] theorem State.sampleLines_fb (a j : Bool) : (s.sampleLines a j).fb = s.fb := rfl
@[simp] theorem State.sampleLines_fbHdr (a j : Bool) : (s.sampleLines a j).fbHdr = s.fbHdr := rfl
@[simp] theorem State.sampleLines_disp (a j : Bool) : (s.sampleLines a j).disp = s.disp := rfl
@[simp] theorem State.sampleLines_frames (a j : Bool) : (s.sampleLines a j).frames = s.frames := rfl
@[simp] theorem State.sampleLines_outLog (a j : Bool) : (s.sampleLines a j).outLog = s.outLog := rfl
@[simp] theorem State.sampleLines_adcLog (a j : Bool) : (s.sampleLines a j).adcLog = s.adcLog := rfl
@[simp] theorem State.sampleLines_trace (a j : Bool) : (s.sampleLines a j).trace = s.trace := rfl
@[simp] theorem State.sampleLines_draws (a j : Bool) : (s.sampleLines a j).draws = s.draws := rfl
@[simp] theorem State.sampleLines_freeCount (a j : Bool) : (s.sampleLines a j).freeCount = s.freeCount := rfl
@[simp] theorem State.sampleLines_params (a j : Bool) : (s.sampleLines a j).params = s.params := rfl

/-! The fetch changes the trace and the free-value counter only. -/

@[simp] theorem State.fetched_ledEn : s.fetched.ledEn = s.ledEn := by unfold State.fetched; split <;> rfl
@[simp] theorem State.fetched_green : s.fetched.green = s.green := by unfold State.fetched; split <;> rfl
@[simp] theorem State.fetched_border : s.fetched.border = s.border := by unfold State.fetched; split <;> rfl
@[simp] theorem State.fetched_last : s.fetched.last = s.last := by unfold State.fetched; split <;> rfl
@[simp] theorem State.fetched_pwmX : s.fetched.pwmX = s.pwmX := by unfold State.fetched; split <;> rfl
@[simp] theorem State.fetched_pwmY : s.fetched.pwmY = s.pwmY := by unfold State.fetched; split <;> rfl
@[simp] theorem State.fetched_greenOut : s.fetched.greenOut = s.greenOut := by unfold State.fetched; split <;> rfl
@[simp] theorem State.fetched_phase : s.fetched.phase = s.phase := by unfold State.fetched; split <;> rfl
@[simp] theorem State.fetched_adcSel : s.fetched.adcSel = s.adcSel := by unfold State.fetched; split <;> rfl
@[simp] theorem State.fetched_rawX : s.fetched.rawX = s.rawX := by unfold State.fetched; split <;> rfl
@[simp] theorem State.fetched_rawY : s.fetched.rawY = s.rawY := by unfold State.fetched; split <;> rfl
@[simp] theorem State.fetched_dx : s.fetched.dx = s.dx := by unfold State.fetched; split <;> rfl
@[simp] theorem State.fetched_dy : s.fetched.dy = s.dy := by unfold State.fetched; split <;> rfl
@[simp] theorem State.fetched_cenX : s.fetched.cenX = s.cenX := by unfold State.fetched; split <;> rfl
@[simp] theorem State.fetched_cenY : s.fetched.cenY = s.cenY := by unfold State.fetched; split <;> rfl
@[simp] theorem State.fetched_curX : s.fetched.curX = s.curX := by unfold State.fetched; split <;> rfl
@[simp] theorem State.fetched_curY : s.fetched.curY = s.curY := by unfold State.fetched; split <;> rfl
@[simp] theorem State.fetched_lvlX : s.fetched.lvlX = s.lvlX := by unfold State.fetched; split <;> rfl
@[simp] theorem State.fetched_lvlY : s.fetched.lvlY = s.lvlY := by unfold State.fetched; split <;> rfl
@[simp] theorem State.fetched_slpT0 : s.fetched.slpT0 = s.slpT0 := by unfold State.fetched; split <;> rfl
@[simp] theorem State.fetched_btnPrev : s.fetched.btnPrev = s.btnPrev := by unfold State.fetched; split <;> rfl
@[simp] theorem State.fetched_irqPend : s.fetched.irqPend = s.irqPend := by unfold State.fetched; split <;> rfl
@[simp] theorem State.fetched_timeMs : s.fetched.timeMs = s.timeMs := by unfold State.fetched; split <;> rfl
@[simp] theorem State.fetched_fb : s.fetched.fb = s.fb := by unfold State.fetched; split <;> rfl
@[simp] theorem State.fetched_fbHdr : s.fetched.fbHdr = s.fbHdr := by unfold State.fetched; split <;> rfl
@[simp] theorem State.fetched_disp : s.fetched.disp = s.disp := by unfold State.fetched; split <;> rfl
@[simp] theorem State.fetched_frames : s.fetched.frames = s.frames := by unfold State.fetched; split <;> rfl
@[simp] theorem State.fetched_outLog : s.fetched.outLog = s.outLog := by unfold State.fetched; split <;> rfl
@[simp] theorem State.fetched_adcLog : s.fetched.adcLog = s.adcLog := by unfold State.fetched; split <;> rfl
@[simp] theorem State.fetched_draws : s.fetched.draws = s.draws := by unfold State.fetched; split <;> rfl
@[simp] theorem State.fetched_params : s.fetched.params = s.params := by unfold State.fetched; split <;> rfl

theorem State.fetched_trace : s.fetched.trace = s.trace.tail := by
  unfold State.fetched; split <;> simp_all

theorem State.fetched_cons (w : StepWord) (ws : List StepWord) (h : s.trace = w :: ws) :
    s.fetched = { s with trace := ws } := by
  simp [State.fetched, h]

theorem State.fetched_nil (h : s.trace = []) : s.fetched = { s with freeCount := s.freeCount + 1 } := by
  simp [State.fetched, h]

@[simp] theorem State.fetched_pending : s.fetched.pending = s.pending := by
  simp [State.pending]

@[simp] theorem State.interruptReturn_eq : s.interruptReturn = s := rfl

@[simp] theorem State.issue_nil : s.issue [] = s := rfl

@[simp] theorem State.issue_one (c : FbCmd) : s.issue [c] = s.runCommand c := rfl

theorem State.pending_eq_false : s.pending = false ↔ s.irqPend.a = false ∧ s.irqPend.j = false := by
  simp [State.pending]

end Sys2Proof.Machine
end

