-- ==== Sys2Proof/Laws/Values.lean ====
section
/-! SUPPORT. What the value computations give as exact numbers: deflection, level, cursor, command coordinates. -/

namespace Sys2Proof.Machine

/-- The default configuration is one a model takes. -/
theorem default_accepted : Params.default.accepted = true := by decide

theorem deflectionOf_eq (s : Sample) : deflectionOf s = ((2048 : Int) - s.toNat).natAbs := rfl

theorem deflectionOf_le (s : Sample) : deflectionOf s ≤ 2048 := by
  have := s.isLt
  rw [deflectionOf_eq]
  omega

/-- The 12-bit register holds the whole deflection (R21). -/
@[simp] theorem deflection_toNat (s : Sample) : (deflection s).toNat = ((2048 : Int) - s.toNat).natAbs := by
  have := deflectionOf_le s
  rw [← deflectionOf_eq, deflection, BitVec.toNat_ofNat]
  exact Nat.mod_eq_of_lt (by omega)

/-- The centred flag, on exact numbers (R104). -/
theorem centred_iff (s : Sample) : centred s = true ↔ ((2048 : Int) - s.toNat).natAbs ≤ 200 := by
  unfold centred
  rw [deflectionOf_eq, decide_eq_true_eq]
  rfl

@[simp] theorem levelOf_off (cen : Bool) (d : Deflection) : levelOf false cen d = 0#12 := rfl

@[simp] theorem levelOf_centred (en : Bool) (d : Deflection) : levelOf en true d = 0#12 := by
  cases en <;> rfl

/-- Where the product fits the register, the level is the product (R111, R113). -/
theorem levelOf_on (d : Deflection) (h : 200 ≤ d.toNat) (h' : d.toNat ≤ 2247) :
    (levelOf true false d).toNat = (d.toNat - 200) * 2 := by
  have hr : (0 : Int) ≤ ((d.toNat : Int) - Config.dzRadius) * Config.gain ∧
      ((d.toNat : Int) - Config.dzRadius) * Config.gain ≤ Config.pwmWrap := by
    simp only [Config.dzRadius, Config.gain, Config.pwmWrap]; omega
  unfold levelOf narrowLevel
  simp only [Bool.true_eq_false, if_false, Bool.false_eq_true, if_pos hr]
  simp only [Config.dzRadius, Config.gain, BitVec.toNat_ofInt]
  omega

/-- The level of a sample is the level function of R115. -/
theorem levelOf_sample (en : Bool) (s : Sample) :
    (levelOf en (centred s) (deflection s)).toNat = specLevel en s.toNat := by
  have hs := s.isLt
  cases en with
  | false => simp [specLevel]
  | true =>
    cases hc : centred s with
    | true => simp [specLevel, (centred_iff s).1 hc]
    | false =>
      have : ¬ ((2048 : Int) - s.toNat).natAbs ≤ 200 := fun h => by
        simp [(centred_iff s).2 h] at hc
      rw [levelOf_on _ (by rw [deflection_toNat]; omega) (by rw [deflection_toNat]; omega)]
      simp [specLevel, this]

/-- A level whose deflection is in range and agrees with its flag is one the block may write (R15, R24). -/
theorem levelOf_legal (en cen : Bool) (d : Deflection) (h : d.toNat ≤ 2048) (hc : cen = true ↔ d.toNat ≤ 200) :
    LegalLevel (levelOf en cen d) := by
  cases en with
  | false => simp [LegalLevel]
  | true =>
    cases cen with
    | true => simp [LegalLevel]
    | false =>
      have h2 : ¬ d.toNat ≤ 200 := fun hh => by simpa using hc.2 hh
      unfold LegalLevel
      rw [levelOf_on d (by omega) (by omega)]
      omega

theorem cursorPx_eq (r : Sample) : cursorPx r = r.toNat * 120 / 4095 := rfl

theorem cursorPx_le (r : Sample) : cursorPx r ≤ 120 := by
  have := r.isLt
  rw [cursorPx_eq]
  omega

/-- The 8-bit register holds the whole coordinate (R23, R121). -/
@[simp] theorem cursorX_toInt (r : Sample) : (cursorX r).toInt = specCurX r.toNat := by
  have h := cursorPx_le r
  rw [cursorPx_eq] at h
  have hc : ((Config.dispW / 2 - 4 : Nat) : Int) = 60 := rfl
  rw [cursorX, hc, cursorPx_eq, BitVec.toInt_ofInt, specCurX]
  exact Int.bmod_eq_of_le (by omega) (by omega)

@[simp] theorem cursorY_toInt (r : Sample) : (cursorY r).toInt = specCurY r.toNat := by
  have := r.isLt
  have h : r.toNat * 56 / 4095 ≤ 56 := by omega
  have hc : ((Config.dispH / 2 - 4 : Nat) : Int) = 28 := rfl
  have hp : cursorPy r = 56 - ((r.toNat * 56 / 4095 : Nat) : Int) := rfl
  rw [cursorY, hc, hp, BitVec.toInt_ofInt, specCurY]
  exact Int.bmod_eq_of_le (by omega) (by omega)

theorem specCur_range (r : Sample) :
    -60 ≤ specCurX r.toNat ∧ specCurX r.toNat ≤ 60 ∧ -28 ≤ specCurY r.toNat ∧ specCurY r.toNat ≤ 28 := by
  have := r.isLt
  unfold specCurX specCurY
  omega

/-- A coordinate in the field's range is held whole (R64, R68). -/
theorem sext9_eq (v : Int) (h : -256 ≤ v) (h' : v ≤ 255) : sext9 v = v := by
  rw [sext9, BitVec.toInt_ofInt]
  exact Int.bmod_eq_of_le (by omega) (by omega)

/-- The marker's command for any origin and cursor: its coordinates are held in 9 bits (R133). -/
theorem markerCommand_rect (ox oy : Int) (cx cy : Cursor) :
    markerCommand ox oy cx cy = .rect true ((ox + cx.toInt).bmod 512) ((oy + cy.toInt).bmod 512) 8 8 := by
  simp only [markerCommand, sext9, BitVec.toInt_ofInt]
  rfl

/-- What an accepted configuration gives (R41, R68). -/
theorem accepted_iff (p : Params) :
    p.accepted = true ↔ p.chX ≠ p.chY ∧ (-196 ≤ p.ox ∧ p.ox ≤ 195) ∧ (-228 ≤ p.oy ∧ p.oy ≤ 227) := by
  simp [Params.accepted, Config.accepted, Config.center, Config.dzRadius, Config.gain, Config.pwmWrap]

/-- Under an accepted origin no cursor in its range makes a coordinate leave the 9-bit field (R65, R68). -/
theorem marker_coordinates {p : Params} (h : p.accepted = true) {cx cy : Int}
    (hx : -60 ≤ cx ∧ cx ≤ 60) (hy : -28 ≤ cy ∧ cy ≤ 28) :
    (p.ox + cx).bmod 512 = p.ox + cx ∧ (p.oy + cy).bmod 512 = p.oy + cy := by
  obtain ⟨-, h1, h2⟩ := (accepted_iff p).1 h
  exact ⟨Int.bmod_eq_of_le (by omega) (by omega), Int.bmod_eq_of_le (by omega) (by omega)⟩

/-- The marker's rectangle covers the pixels of R136 (i). -/
theorem rectLit_marker (left top x y : Int) : RectLit true left top 8 8 x y ↔ MarkerLit left top x y := by
  simp only [RectLit, MarkerLit, true_or, and_true]
  omega

/-- The border's commands light the pixels of R136 (ii) and (iii). -/
theorem rectLit_border (b : Border) (x y : Int) (hx : 0 ≤ x) (hx' : x ≤ 127) (hy : 0 ≤ y) (hy' : y ≤ 63) :
    (∃ f u v w h, FbCmd.rect f u v w h ∈ borderCommands b ∧ RectLit f u v w h x y) ↔ BorderLit b x y := by
  cases b <;>
    simp [borderCommands, BorderLit, RectLit, Config.thinMargin, Config.dispW, Config.dispH] <;> omega

end Sys2Proof.Machine
end

