-- ==== Sys2Proof/Laws/Ops.lean ====
section
/-! SUPPORT. What each shared operation can do, said once: if it answers a next state, then exactly so. -/

namespace Sys2Proof.Machine

variable {s t : State}

theorem pending_eq_false : s.pending = false ↔ Quiet s := State.pending_eq_false s

theorem whenSelected_next {p : Phase} {r : Result} :
    whenSelected p s r = .next t ↔ s.pending = false ∧ s.phase = p ∧ r = .next t := by
  unfold whenSelected
  split
  next h => simp [h]
  next h =>
    split
    next h' => simp [h, h']
    next h' => simp [h']

theorem foreground_next {p : Phase} {e : State → State} :
    foreground p e s = .next t ↔ s.pending = false ∧ s.phase = p ∧ (e s).advance p = t := by
  simp [foreground, whenSelected_next]

/-- A selected foreground operation completes while nothing is pending. -/
theorem foreground_runs {p : Phase} {e : State → State} (h : s.pending = false) (hp : s.phase = p) :
    foreground p e s = .next ((e s).advance p) :=
  foreground_next.2 ⟨h, hp, rfl⟩

theorem whenQuiet_next {r : Result} : whenQuiet s r = .next t ↔ s.pending = false ∧ r = .next t := by
  unfold whenQuiet
  split <;> simp_all

theorem takeInterrupt_next {l : Line} {f : State → State} :
    takeInterrupt l f s = .next t ↔ s.irqPend.get l = true ∧ f (s.interruptEntry l) = t := by
  unfold takeInterrupt
  split <;> simp_all

theorem gated_accepted {f : State → State} (h : accepts s = true) : gated f s = { f s with last := s.timeMs } := by
  simp [gated, h]

theorem gated_dropped {f : State → State} (h : accepts s = false) : gated f s = s := by
  simp [gated, h]

theorem accepts_iff : accepts s = true ↔ 200 < (s.timeMs - s.last).toNat := by
  simp [accepts, elapsed, Config.debounceMs]

theorem accepts_eq_false : accepts s = false ↔ (s.timeMs - s.last).toNat ≤ 200 := by
  simp [accepts, elapsed, Config.debounceMs]

@[simp] theorem accepts_interruptEntry (l : Line) : accepts (s.interruptEntry l) = accepts s := rfl

theorem sleepOver_iff : sleepOver s = true ↔ 100 ≤ (s.timeMs - s.slpT0).toNat := by
  simp [sleepOver, elapsed, Config.sleepMs]

theorem adcSample_cons {v : Sample} {vs : List Sample} (h : s.draws = v :: vs) : s.adcSample = v := by
  simp [State.adcSample, h]

@[simp] theorem Lines.get_set_same (ls : Lines) (l : Line) (b : Bool) : (ls.set l b).get l = b := by
  cases l <;> rfl

/-- The step of a fetched word that decodes is that instruction's meaning. -/
theorem step_of_decode {i : Instr} (ha : s.params.accepted = true) (h : decode s.nextWord = .ok i) :
    step s = exec i s.fetched := by
  simp [step, ha, h]

/-- A configuration no model takes is refused before anything else. -/
theorem step_of_not_accepted (h : s.params.accepted = false) : step s = .refused .configuration := by
  simp [step, h]

theorem step_next : step s = .next t ↔
    s.params.accepted = true ∧ ∃ i, decode s.nextWord = .ok i ∧ exec i s.fetched = .next t := by
  unfold step
  split
  next ha =>
    simp only [ha, true_and]
    split
    next i h => simp [h]
    next e h => simp [h]
  next ha => simp [ha]

/-- The fields that neither a foreground operation's effect nor a handler shares are framed by these records; a
composer operation changes the framebuffer, the display and the frame list only. -/
theorem runCommand_eq (c : FbCmd) :
    s.runCommand c = { s with fb := (s.runCommand c).fb, disp := (s.runCommand c).disp, frames := (s.runCommand c).frames } := by
  cases c <;> rfl

/-- The border's commands change `FB` only. -/
theorem issue_border_eq (b : Border) :
    s.issue (borderCommands b) = { s with fb := (s.issue (borderCommands b)).fb } := by
  cases b <;> rfl

/-- The border's commands add the pixels of R136 (ii) and (iii). -/
theorem issue_border_pixel (b : Border) {x y : Nat} (hx : x < 128) (hy : y < 64) :
    (s.issue (borderCommands b)).fb.pixel x y = true ↔ s.fb.pixel x y = true ∨ BorderLit b x y := by
  cases b with
  | none => simp [borderCommands, BorderLit]
  | thin =>
    have := fbRect_lit false 2 2 124 60 s.fb hx hy
    refine Iff.trans this (or_congr_right ?_)
    simp only [RectLit, BorderLit, Bool.false_eq_true, false_or]
    omega
  | full =>
    have := fbRect_lit false 0 0 128 64 s.fb hx hy
    refine Iff.trans this (or_congr_right ?_)
    simp only [RectLit, BorderLit, Bool.false_eq_true, false_or]
    omega

/-- The marker's command adds the pixels of R136 (i), for every origin, its coordinates held in 9 bits. -/
theorem issue_marker_pixel (ox oy : Int) (cx cy : Cursor) {x y : Nat} (hx : x < 128) (hy : y < 64) :
    (s.issue [markerCommand ox oy cx cy]).fb.pixel x y = true ↔
      s.fb.pixel x y = true ∨ MarkerLit ((ox + cx.toInt).bmod 512) ((oy + cy.toInt).bmod 512) x y := by
  rw [markerCommand_rect, State.issue_one, State.runRect_fb, fbRect_lit _ _ _ _ _ _ hx hy, rectLit_marker]

/-- The marker's command changes `FB` only. -/
theorem issue_marker_eq (ox oy : Int) (cx cy : Cursor) :
    s.issue [markerCommand ox oy cx cy] = { s with fb := (s.issue [markerCommand ox oy cx cy]).fb } := rfl

theorem lastPwmX_append (log : List OutWrite) (w : OutWrite) :
    lastPwmX (log ++ [w]) = match w with | .pwmX u => u | .pwmY _ => lastPwmX log | .green _ => lastPwmX log := by
  rw [lastPwmX, List.foldl_append]
  cases w <;> rfl

theorem lastPwmY_append (log : List OutWrite) (w : OutWrite) :
    lastPwmY (log ++ [w]) = match w with | .pwmX _ => lastPwmY log | .pwmY u => u | .green _ => lastPwmY log := by
  rw [lastPwmY, List.foldl_append]
  cases w <;> rfl

theorem lastGreen_append (log : List OutWrite) (w : OutWrite) :
    lastGreen (log ++ [w]) = match w with | .pwmX _ => lastGreen log | .pwmY _ => lastGreen log | .green u => u := by
  rw [lastGreen, List.foldl_append]
  cases w <;> rfl

end Sys2Proof.Machine
end

