-- ==== Sys2Proof/Laws/Exec.lean ====
section
/-! SUPPORT. What an instruction can do, said once: `effect i s` is the state it leaves, and `exec i s` answers a next
state exactly when the step is enabled, and then this one. Later proofs cite `exec_next` and unfold no meaning. -/

namespace Sys2Proof.Machine

/-- The state an enabled instruction leaves. -/
def effect (i : Instr) (s : State) : State :=
  match i with
  | .selx => (s.adcSelect s.params.chX).advance .selx
  | .rdx => ({ s.adcDone with rawX := s.adcSample }).advance .rdx
  | .sely => (s.adcSelect s.params.chY).advance .sely
  | .rdy => ({ s.adcDone with rawY := s.adcSample }).advance .rdy
  | .dzx => ({ s with dx := deflection s.rawX, cenX := centred s.rawX }).advance .dzx
  | .dzy => ({ s with dy := deflection s.rawY, cenY := centred s.rawY }).advance .dzy
  | .cmap => ({ s with curX := cursorX s.rawX, curY := cursorY s.rawY }).advance .cmap
  | .lvlx => ({ s with lvlX := levelOf s.ledEn s.cenX s.dx }).advance .lvlx
  | .drvx => (s.outWrite (.pwmX s.lvlX)).advance .drvx
  | .lvly => ({ s with lvlY := levelOf s.ledEn s.cenY s.dy }).advance .lvly
  | .drvy => (s.outWrite (.pwmY s.lvlY)).advance .drvy
  | .clr => (s.issue [.clear]).advance .clr
  | .brd => (s.issue (borderCommands s.border)).advance .brd
  | .mrk => (s.issue [markerCommand s.params.ox s.params.oy s.curX s.curY]).advance .mrk
  | .fls => (s.issue [.flush]).advance .fls
  | .slpe => ({ s with slpT0 := s.timeMs }).advance .slpe
  | .slpw => s.advance .slpw
  | .irqA => gated flipLedEn (s.interruptEntry .buttonA)
  | .irqJ => gated flipGreen (s.interruptEntry .joystick)
  | .clear => s.runCommand .clear
  | .rect fill x y w h => s.runCommand (.rect fill x y w h)
  | .flush => s.runCommand .flush
  | .tick => { s with timeMs := s.timeMs + 1#32 }
  | .input a j => s.sampleLines a j
  | .reset => s.afterReset

variable {s t : State}

theorem foreground_enabled {p : Phase} {e : State → State} :
    foreground p e s = .next t ↔
      (Quiet s ∧ s.phase = p) ∧ t = (e s).advance p := by
  rw [foreground_next, pending_eq_false, and_assoc, eq_comm (a := t)]

theorem whenQuiet_enabled {u : State} :
    whenQuiet s (.next u) = .next t ↔ Quiet s ∧ t = u := by
  rw [whenQuiet_next, pending_eq_false, Host.Outcome.next.injEq, eq_comm (a := t)]

theorem takeInterrupt_enabled {l : Line} {f : State → State} :
    takeInterrupt l f s = .next t ↔ s.irqPend.get l = true ∧ t = f (s.interruptEntry l) := by
  rw [takeInterrupt_next, eq_comm (a := t)]

/-- The inversion of `exec`: it answers a next state exactly in the enabled states, and that state is the effect. -/
theorem exec_next {i : Instr} : exec i s = .next t ↔ Enabled i s ∧ t = effect i s := by
  cases i with
  | slpw =>
    refine whenSelected_next.trans ?_
    rw [pending_eq_false, show Enabled .slpw s ↔ Quiet s ∧ s.phase = .slpw ∧ sleepOver s = true from
      and_congr_right fun _ => and_congr_right fun _ => sleepOver_iff.symm]
    split
    next h => simp [h, effect, eq_comm, and_assoc]
    next h => simp [h]
  | irqA => exact takeInterrupt_enabled
  | irqJ => exact takeInterrupt_enabled
  | clear => exact whenQuiet_enabled
  | rect => exact whenQuiet_enabled
  | flush => exact whenQuiet_enabled
  | tick => exact whenQuiet_enabled
  | input => exact whenQuiet_enabled
  | reset => exact ⟨fun h => ⟨trivial, (Host.Outcome.next.inj h).symm⟩, fun h => by rw [h.2]; rfl⟩
  | selx => simp only [exec, execSelx]; exact foreground_enabled
  | rdx => simp only [exec, execRdx]; exact foreground_enabled
  | sely => simp only [exec, execSely]; exact foreground_enabled
  | rdy => simp only [exec, execRdy]; exact foreground_enabled
  | dzx => simp only [exec, execDzx]; exact foreground_enabled
  | dzy => simp only [exec, execDzy]; exact foreground_enabled
  | cmap => simp only [exec, execCmap]; exact foreground_enabled
  | lvlx => simp only [exec, execLvlx]; exact foreground_enabled
  | drvx => simp only [exec, execDrvx]; exact foreground_enabled
  | lvly => simp only [exec, execLvly]; exact foreground_enabled
  | drvy => simp only [exec, execDrvy]; exact foreground_enabled
  | clr => simp only [exec, execClr]; exact foreground_enabled
  | brd => simp only [exec, execBrd]; exact foreground_enabled
  | mrk => simp only [exec, execMrk]; exact foreground_enabled
  | fls => simp only [exec, execFls]; exact foreground_enabled
  | slpe => simp only [exec, execSlpe]; exact foreground_enabled

/-- A step's next state is the effect of an enabled instruction that the next word decodes to, under a configuration a
model takes. -/
theorem step_next_effect : step s = .next t ↔
    s.params.accepted = true ∧ ∃ i, decode s.nextWord = .ok i ∧ Enabled i s.fetched ∧ t = effect i s.fetched := by
  rw [step_next]
  simp only [exec_next]

/-! What each handler arm leaves unchanged. -/

theorem flipLedEn_eq : flipLedEn s =
    { s with ledEn := !s.ledEn, pwmX := (flipLedEn s).pwmX, pwmY := (flipLedEn s).pwmY, outLog := (flipLedEn s).outLog } := by
  cases h : s.ledEn <;> simp [flipLedEn, h, State.outWrite]

theorem flipGreen_eq : flipGreen s =
    { s with green := !s.green, border := s.border.next, greenOut := !s.green, outLog := s.outLog ++ [.green (!s.green)] } :=
  rfl

end Sys2Proof.Machine
end

