-- ==== Sys2Proof/Laws/PerInstr.lean ====
section
/-! SUPPORT. The laws made instruction by instruction: the encoder against the rows of spec/opcode_table.json, written
out a second time as the table prints them (width, mask, match). -/

namespace Sys2Proof.Laws.EncodingMatchesTable

/-- A row of the table: the width in bits, and the mask and the match as numbers (R69). -/
structure Row where
  width : Nat
  mask : Nat
  value : Nat
deriving DecidableEq, Repr

/-- The row of an instruction, copied from spec/opcode_table.json. -/
def row (i : Instr) : Row :=
  match i with
  | .selx => ⟨5, 0x1F, 0x00⟩
  | .rdx => ⟨5, 0x1F, 0x01⟩
  | .sely => ⟨5, 0x1F, 0x02⟩
  | .rdy => ⟨5, 0x1F, 0x03⟩
  | .dzx => ⟨5, 0x1F, 0x04⟩
  | .dzy => ⟨5, 0x1F, 0x05⟩
  | .cmap => ⟨5, 0x1F, 0x06⟩
  | .lvlx => ⟨5, 0x1F, 0x07⟩
  | .drvx => ⟨5, 0x1F, 0x08⟩
  | .lvly => ⟨5, 0x1F, 0x09⟩
  | .drvy => ⟨5, 0x1F, 0x0A⟩
  | .clr => ⟨5, 0x1F, 0x0B⟩
  | .brd => ⟨5, 0x1F, 0x0C⟩
  | .mrk => ⟨5, 0x1F, 0x0D⟩
  | .fls => ⟨5, 0x1F, 0x0E⟩
  | .slpe => ⟨5, 0x1F, 0x0F⟩
  | .slpw => ⟨5, 0x1F, 0x10⟩
  | .irqA => ⟨1, 0x1, 0x0⟩
  | .irqJ => ⟨1, 0x1, 0x1⟩
  | .clear => ⟨36, 0xFFFFFFFFF, 0x000000000⟩
  | .rect _ _ _ _ _ => ⟨36, 0xC00000000, 0x400000000⟩
  | .flush => ⟨36, 0xFFFFFFFFF, 0x800000000⟩
  | .tick => ⟨4, 0xF, 0x0⟩
  | .input _ _ => ⟨4, 0xC, 0x4⟩
  | .reset => ⟨4, 0xF, 0x8⟩

/-- The width of a step word. -/
def width (w : StepWord) : Nat :=
  match w with
  | .phase _ => 5
  | .irq _ => 1
  | .command _ => 36
  | .event _ => 4

/-- The bits of a step word as a number. -/
def bits (w : StepWord) : Nat :=
  match w with
  | .phase op => op.toNat
  | .irq line => line.toNat
  | .command cmd => cmd.toNat
  | .event ev => ev.toNat

/-- A well-formed instruction's word has its row's width and its row's fixed bits. -/
def Statement (i : Instr) : Prop :=
  WellFormed i → width (encode i) = (row i).width ∧ bits (encode i) &&& (row i).mask = (row i).value

theorem selx : Statement .selx := fun _ => by decide
theorem rdx : Statement .rdx := fun _ => by decide
theorem sely : Statement .sely := fun _ => by decide
theorem rdy : Statement .rdy := fun _ => by decide
theorem dzx : Statement .dzx := fun _ => by decide
theorem dzy : Statement .dzy := fun _ => by decide
theorem cmap : Statement .cmap := fun _ => by decide
theorem lvlx : Statement .lvlx := fun _ => by decide
theorem drvx : Statement .drvx := fun _ => by decide
theorem lvly : Statement .lvly := fun _ => by decide
theorem drvy : Statement .drvy := fun _ => by decide
theorem clr : Statement .clr := fun _ => by decide
theorem brd : Statement .brd := fun _ => by decide
theorem mrk : Statement .mrk := fun _ => by decide
theorem fls : Statement .fls := fun _ => by decide
theorem slpe : Statement .slpe := fun _ => by decide
theorem slpw : Statement .slpw := fun _ => by decide
theorem irqA : Statement .irqA := fun _ => by decide
theorem irqJ : Statement .irqJ := fun _ => by decide
theorem clear : Statement .clear := fun _ => by decide
theorem flush : Statement .flush := fun _ => by decide
theorem tick : Statement .tick := fun _ => by decide
theorem input (a j : Bool) : Statement (.input a j) := fun _ => by revert a j; decide
theorem reset : Statement .reset := fun _ => by decide

theorem rect (fill : Bool) (x y : Int) (w h : Nat) : Statement (.rect fill x y w h) := by
  intro _
  refine ⟨rfl, ?_⟩
  have key : commandWord 1#2 fill x y w h &&& 0xC00000000#36 = 0x400000000#36 := by
    apply BitVec.eq_of_getLsbD_eq
    intro i hi
    rw [BitVec.getLsbD_and]
    by_cases hb : i < 34
    · have : (0xC00000000#36).getLsbD i = false ∧ (0x400000000#36).getLsbD i = false := by
        revert hb
        revert i
        decide
      rw [this.1, this.2, Bool.and_false]
    · have hf := congrArg (fun v => v.getLsbD (i - 34)) (fieldFop_commandWord 1#2 fill x y w h)
      simp only [fieldFop, BitVec.getLsbD_extractLsb'] at hf
      rcases (show i = 34 ∨ i = 35 by omega) with rfl | rfl <;> simpa using hf
  exact congrArg BitVec.toNat key

end Sys2Proof.Laws.EncodingMatchesTable
end

