-- ==== Sys2Proof/Laws/Trace.lean ====
section
/-! SUPPORT. What a pseudo-operation loads, and what an instruction does to `BTN_PREV` and to the converter's answers. -/

namespace Sys2Proof.Machine

variable (s : State) (m : Macro)

@[simp] theorem levelsAfter_nil (prev : Lines) : levelsAfter prev [] = prev := rfl

@[simp] theorem levelsAfter_cons (prev : Lines) (w : StepWord) (ws : List StepWord) :
    levelsAfter prev (w :: ws) = levelsAfter (levelsAfterWord prev w) ws := rfl

@[simp] theorem State.load_trace :
    (s.load m).trace = s.trace ++ (m.lines (levelsAfter s.btnPrev s.trace)).map encode := rfl

@[simp] theorem State.load_draws :
    (s.load m).draws = s.waitingDraws ++ m.draws ++ s.draws.drop (s.trace.countP isRead) := rfl

/-- The load changes the environment's two lists only. -/
theorem State.load_eq : s.load m = { s with trace := (s.load m).trace, draws := (s.load m).draws } := rfl

/-- With nothing waiting the lines stand first and are expanded for the `BTN_PREV` of the state. -/
theorem State.load_of_empty (h : s.trace = []) :
    s.load m = { s with trace := (m.lines s.btnPrev).map encode, draws := m.draws ++ s.draws } := by
  simp [State.load, State.waitingDraws, h]

variable {s}

/-- `BTN_PREV` after an instruction, from its word. -/
theorem effect_btnPrev {w : StepWord} {i : Instr} (h : decode w = .ok i) :
    (effect i s).btnPrev = levelsAfterWord s.btnPrev w := by
  unfold levelsAfterWord
  rw [h]
  cases i with
  | irqA => simp only [effect, gated]; split; (rw [flipLedEn_eq]; rfl); rfl
  | irqJ => simp only [effect, gated]; split <;> rfl
  | brd => simp only [effect]; rw [issue_border_eq]; rfl
  | _ => rfl

end Sys2Proof.Machine
end

