-- ==== Sys2Proof/Tests/Slice0.lean ====
section
/-! SUPPORT. Smoke tests of the well-formedness check, words written out from the encoding tables, one or two small steps
for each instruction (expected values from the rules' examples and spec/95_test_vectors.md), and for each statement a
state that meets its hypotheses. -/

namespace Sys2Proof.Tests

open Sys2Proof.Machine

/-! ## Well-formedness: an ill-formed term for each check (R64, R138) -/

theorem test_wf_x_low : wellFormed (.rect true (-257) 0 8 8) = false := by decide
theorem test_wf_x_high : wellFormed (.rect true 256 0 8 8) = false := by decide
theorem test_wf_y_low : wellFormed (.rect true 0 (-257) 8 8) = false := by decide
theorem test_wf_y_high : wellFormed (.rect true 0 256 8 8) = false := by decide
theorem test_wf_w_high : wellFormed (.rect true 0 0 256 8) = false := by decide
theorem test_wf_h_high : wellFormed (.rect true 0 0 8 128) = false := by decide
theorem test_wf_edges_low : WellFormed (.rect false (-256) (-256) 0 0) := by decide
theorem test_wf_edges_high : WellFormed (.rect true 255 255 255 127) := by decide

/-! ## Decoding: words of R62, R63, R64, R67 and of table V5 -/

theorem test_decode_selx : decode (.phase 0b00000#5) = .ok .selx := by decide
theorem test_decode_rdx : decode (.phase 0b00001#5) = .ok .rdx := by decide
theorem test_decode_sely : decode (.phase 0b00010#5) = .ok .sely := by decide
theorem test_decode_rdy : decode (.phase 0b00011#5) = .ok .rdy := by decide
theorem test_decode_dzx : decode (.phase 0b00100#5) = .ok .dzx := by decide
theorem test_decode_dzy : decode (.phase 0b00101#5) = .ok .dzy := by decide
theorem test_decode_cmap : decode (.phase 0b00110#5) = .ok .cmap := by decide
theorem test_decode_lvlx : decode (.phase 0b00111#5) = .ok .lvlx := by decide
theorem test_decode_drvx : decode (.phase 0b01000#5) = .ok .drvx := by decide
theorem test_decode_lvly : decode (.phase 0b01001#5) = .ok .lvly := by decide
theorem test_decode_drvy : decode (.phase 0b01010#5) = .ok .drvy := by decide
theorem test_decode_clr : decode (.phase 0b01011#5) = .ok .clr := by decide
theorem test_decode_brd : decode (.phase 0b01100#5) = .ok .brd := by decide
theorem test_decode_mrk : decode (.phase 0b01101#5) = .ok .mrk := by decide
theorem test_decode_fls : decode (.phase 0b01110#5) = .ok .fls := by decide
theorem test_decode_slpe : decode (.phase 0b01111#5) = .ok .slpe := by decide
theorem test_decode_slpw : decode (.phase 0b10000#5) = .ok .slpw := by decide
theorem test_decode_irq : decode (.irq 0b0#1) = .ok .irqA ∧ decode (.irq 0b1#1) = .ok .irqJ := by decide
theorem test_decode_clear : decode (.command 0x000000000#36) = .ok .clear := by decide
theorem test_decode_flush : decode (.command 0x800000000#36) = .ok .flush := by decide
theorem test_decode_rect_thin : decode (.command 0x402013E3C#36) = .ok (.rect false 2 2 124 60) := by decide
theorem test_decode_rect_full : decode (.command 0x400004040#36) = .ok (.rect false 0 0 128 64) := by decide
theorem test_decode_rect_marker : decode (.command 0x63C0E0408#36) = .ok (.rect true 60 28 8 8) := by decide
theorem test_decode_rect_left : decode (.command 0x7C40E0408#36) = .ok (.rect true (-60) 28 8 8) := by decide
theorem test_decode_rect_above : decode (.command 0x63CF20408#36) = .ok (.rect true 60 (-28) 8 8) := by decide
theorem test_decode_tick : decode (.event 0b0000#4) = .ok .tick := by decide
theorem test_decode_input_a : decode (.event 0b0101#4) = .ok (.input false true) := by decide
theorem test_decode_input_j : decode (.event 0b0110#4) = .ok (.input true false) := by decide
theorem test_decode_reset : decode (.event 0b1000#4) = .ok .reset := by decide
theorem test_encode_marker : encode (.rect true 60 28 8 8) = .command 0x63C0E0408#36 := by decide
theorem test_encode_corner : encode (.rect true (-4) (-4) 8 8) = .command 0x7FCFE0408#36 := by decide
theorem test_table_word_phase : decodeTableWord 5 0x10 = some .slpw := by decide
theorem test_table_word_irq : decodeTableWord 1 0x1 = some .irqJ := by decide
theorem test_table_word_event : decodeTableWord 4 0x8 = some .reset := by decide
theorem test_table_word_rect : decodeTableWord 36 0x400000000 = some (.rect false 0 0 0 0) := by decide
theorem test_table_word_reserved : decodeTableWord 5 0x11 = none := by decide

/-! ## One step of each instruction -/

/-- The reset state with another phase. -/
def atPhase (p : Phase) : State := { State.reset with phase := p }

/-- The reset state at a time, with both lines pending. -/
def pendingAt (now last : Time) : State := { State.reset with timeMs := now, last := last, irqPend := ⟨true, true⟩ }

/-- A part of the next state, if there is one. -/
def got {α : Type} (f : State → α) (r : Result) : Option α :=
  match r with
  | .next s => some (f s)
  | .fault _ => none
  | .refused _ => none

/-- Is the outcome this refusal? -/
def refuses (e : Refusal) (r : Result) : Bool :=
  match r with
  | .next _ => false
  | .fault _ => false
  | .refused e' => decide (e = e')

theorem test_selx : got (fun s => (s.adcSel, s.phase)) (exec .selx { State.resetWith { Params.default with chX := 3 } with adcSel := 9 }) =
    some (3, .rdx) := by decide
theorem test_rdx : got (fun s => (s.rawX, s.phase)) (exec .rdx { atPhase .rdx with draws := [4095#12, 7#12] }) =
    some (4095#12, .sely) := by decide
theorem test_rdx_uses_up : got (fun s => (s.draws, s.rawY)) (exec .rdx { atPhase .rdx with draws := [4095#12, 7#12] }) =
    some ([7#12], 0#12) := by decide
theorem test_sely : got (fun s => (s.adcSel, s.phase)) (exec .sely { atPhase .sely with params := { Params.default with chY := 7 } }) =
    some (7, .rdy) := by decide
theorem test_rdy : got (fun s => (s.rawY, s.rawX, s.phase)) (exec .rdy { atPhase .rdy with draws := [2048#12] }) =
    some (2048#12, 0#12, .dzx) := by decide
theorem test_dzx : got (fun s => (s.dx, s.cenX, s.phase)) (exec .dzx { atPhase .dzx with rawX := 4095#12 }) =
    some (2047#12, false, .dzy) := by decide
theorem test_dzx_edge : got (fun s => (s.dx, s.cenX)) (exec .dzx { atPhase .dzx with rawX := 1848#12 }) =
    some (200#12, true) := by decide
theorem test_dzy : got (fun s => (s.dy, s.cenY, s.phase)) (exec .dzy { atPhase .dzy with rawY := 0#12 }) =
    some (2048#12, false, .cmap) := by decide
theorem test_dzy_edge : got (fun s => (s.dy, s.cenY)) (exec .dzy { atPhase .dzy with rawY := 2249#12 }) =
    some (201#12, false) := by decide
theorem test_cmap : got (fun s => (s.curX.toInt, s.curY.toInt, s.phase))
    (exec .cmap { atPhase .cmap with rawX := 4095#12, rawY := 2047#12 }) = some (60, 1, .lvlx) := by decide
theorem test_cmap_low : got (fun s => (s.curX.toInt, s.curY.toInt))
    (exec .cmap { atPhase .cmap with rawX := 34#12, rawY := 4022#12 }) = some (-60, -27) := by decide
theorem test_lvlx : got (fun s => (s.lvlX, s.phase)) (exec .lvlx { atPhase .lvlx with dx := 2047#12 }) =
    some (3694#12, .drvx) := by decide
theorem test_lvlx_off : got (fun s => s.lvlX) (exec .lvlx { atPhase .lvlx with dx := 2047#12, ledEn := false, lvlX := 2#12 }) =
    some 0#12 := by decide
theorem test_drvx : got (fun s => (s.pwmX, s.pwmY, s.outLog)) (exec .drvx { atPhase .drvx with lvlX := 3694#12 }) =
    some (3694#12, 0#12, [.pwmX 3694#12]) := by decide
theorem test_drvx_zero : got (fun s => (s.pwmX, s.outLog)) (exec .drvx { atPhase .drvx with pwmX := 2#12 }) =
    some (0#12, [.pwmX 0#12]) := by decide
theorem test_lvly : got (fun s => (s.lvlY, s.phase)) (exec .lvly { atPhase .lvly with dy := 952#12 }) =
    some (1504#12, .drvy) := by decide
theorem test_lvly_centred : got (fun s => s.lvlY) (exec .lvly { atPhase .lvly with dy := 200#12, cenY := true, lvlY := 2#12 }) =
    some 0#12 := by decide
theorem test_drvy : got (fun s => (s.pwmX, s.pwmY, s.outLog, s.phase)) (exec .drvy { atPhase .drvy with lvlY := 1504#12 }) =
    some (0#12, 1504#12, [.pwmY 1504#12], .clr) := by decide
theorem test_clr : got (fun s => (s.fb.pixel 127 63, s.fbHdr, s.phase))
    (exec .clr { atPhase .clr with fb := Image.allDark.setPixel 127 63, fbHdr := [0x40#8] }) =
    some (false, [0x40#8], .brd) := by decide
theorem test_brd_none : got (fun s => (s.fb.pixel 0 0, s.phase)) (exec .brd (atPhase .brd)) = some (false, .mrk) := by decide
theorem test_mrk : got (fun s => (s.fb.pixel 60 28, s.fb.pixel 67 35, s.fb.pixel 68 35, s.phase)) (exec .mrk (atPhase .mrk)) =
    some (true, true, false, .fls) := by decide
theorem test_fls : got (fun s => (s.disp.pixel 5 6, s.frames.length, s.phase))
    (exec .fls { atPhase .fls with fb := Image.allDark.setPixel 5 6 }) = some (true, 1, .slpe) := by decide
theorem test_slpe : got (fun s => (s.slpT0, s.phase)) (exec .slpe { atPhase .slpe with timeMs := 1234#32 }) =
    some (1234#32, .slpw) := by decide
theorem test_slpw : got (fun s => s.phase) (exec .slpw { atPhase .slpw with slpT0 := 0xFFFFFFCE#32, timeMs := 50#32 }) =
    some .selx := by decide
theorem test_slpw_held : refuses .sleepNotOver
    (exec .slpw { atPhase .slpw with slpT0 := 0xFFFFFFCE#32, timeMs := 49#32 }) = true := by decide
theorem test_irqA : got (fun s => (s.ledEn, s.pwmX, s.outLog, s.last, s.irqPend))
    (exec .irqA { pendingAt 1000#32 0#32 with pwmX := 3694#12 }) =
    some (false, 0#12, [.pwmX 0#12, .pwmY 0#12], 1000#32, ⟨false, true⟩) := by decide
theorem test_irqA_on : got (fun s => (s.ledEn, s.pwmX, s.outLog))
    (exec .irqA { pendingAt 0x65#32 0xFFFFFF9C#32 with ledEn := false, pwmX := 3696#12 }) =
    some (true, 3696#12, []) := by decide
theorem test_irqJ : got (fun s => (s.green, s.greenOut, s.border, s.last, s.outLog))
    (exec .irqJ { pendingAt 5000#32 1000#32 with border := .full }) =
    some (true, true, .none, 5000#32, [.green true]) := by decide
theorem test_irqJ_dropped : got (fun s => (s.green, s.border, s.last, s.irqPend)) (exec .irqJ (pendingAt 1200#32 1000#32)) =
    some (false, .none, 1000#32, ⟨true, false⟩) := by decide
theorem test_clear : got (fun s => (s.fb.pixel 0 0, s.phase))
    (exec .clear { State.reset with fb := Image.allDark.setPixel 0 0 }) = some (false, .selx) := by decide
theorem test_rect_ring : got (fun s => (s.fb.pixel 10 10, s.fb.pixel 12 12, s.fb.pixel 11 11, s.fb.pixel 13 10))
    (exec (.rect false 10 10 3 3) State.reset) = some (true, true, false, false) := by decide
theorem test_rect_clipped : got (fun s => (s.fb.pixel 2 0, s.fb.pixel 2 2, s.fb.pixel 0 0, s.fb.pixel 127 0))
    (exec (.rect false (-1) (-1) 4 4) State.reset) = some (true, true, false, false) := by decide
theorem test_flush : got (fun s => (s.disp.pixel 9 9, s.fb.pixel 9 9, s.frames.length))
    (exec .flush { State.reset with fb := Image.allDark.setPixel 9 9 }) = some (true, true, 1) := by decide
theorem test_tick_wraps : got (fun s => s.timeMs) (exec .tick { State.reset with timeMs := 0xFFFFFFFF#32 }) =
    some 0#32 := by decide
theorem test_tick_held : refuses .interruptPending (exec .tick (pendingAt 0#32 0#32)) = true := by decide
theorem test_input : got (fun s => (s.irqPend, s.btnPrev))
    (exec (.input false true) { State.reset with btnPrev := ⟨true, false⟩ }) =
    some (⟨true, false⟩, ⟨false, true⟩) := by decide
theorem test_input_held : got (fun s => (s.irqPend, s.btnPrev))
    (exec (.input false false) { State.reset with btnPrev := ⟨false, true⟩ }) =
    some (⟨false, true⟩, ⟨false, false⟩) := by decide
theorem test_reset : got (fun s => (s.ledEn, s.border, s.last, s.irqPend, s.btnPrev, s.phase))
    (exec .reset { pendingAt 9#32 9#32 with ledEn := false, border := .full, btnPrev := ⟨false, false⟩, phase := .fls }) =
    some (true, .none, 0#32, ⟨false, false⟩, ⟨true, true⟩, .selx) := by decide

/-- R132: the thin outline starts at column 2, row 2, and leaves the margin dark. -/
theorem test_brd_thin : ∃ t, exec .brd { atPhase .brd with border := .thin } = .next t ∧
    t.fb.pixel 2 2 = true ∧ t.fb.pixel 125 61 = true ∧ t.fb.pixel 1 1 = false ∧ t.fb.pixel 3 3 = false := by
  have key (x y : Nat) (hx : x < 128) (hy : y < 64) :=
    issue_border_pixel (s := { atPhase .brd with border := .thin }) .thin hx hy
  have dark (x y : Nat) : ¬ ({ atPhase .brd with border := .thin } : State).fb.pixel x y = true := by
    simp [atPhase, State.reset, State.resetWith]
  refine ⟨_, exec_next.2 ⟨⟨⟨rfl, rfl⟩, rfl⟩, rfl⟩, (key 2 2 (by omega) (by omega)).2 (.inr ?_),
    (key 125 61 (by omega) (by omega)).2 (.inr ?_), eq_false_of_ne_true fun h => ?_, eq_false_of_ne_true fun h => ?_⟩
  · simp [BorderLit]
  · simp [BorderLit]
  · exact ((key 1 1 (by omega) (by omega)).1 h).elim (dark 1 1) (by simp [BorderLit])
  · exact ((key 3 3 (by omega) (by omega)).1 h).elim (dark 3 3) (by simp [BorderLit])

/-- A state under the literal origin (0, 0), the reading C1 rejects (R123, program P9, table V5). -/
def literalOrigin (p : Phase) : State := { atPhase p with params := { Params.default with ox := 0, oy := 0 } }

theorem test_marker_literal_origin : markerCommand 0 0 (BitVec.ofInt 8 (-60)) 28#8 = .rect true (-60) 28 8 8 := by decide
theorem test_mrk_literal_origin : got (fun s => (s.fb.pixel 3 3, s.fb.pixel 4 3, s.fb.pixel 60 28))
    (exec .mrk { literalOrigin .mrk with curX := BitVec.ofInt 8 (-4), curY := BitVec.ofInt 8 (-4) }) =
    some (true, false, false) := by decide
theorem test_literal_origin_runs : (literalOrigin .mrk).params.accepted = true ∧
    got (fun s => s.phase) (step (literalOrigin .mrk)) = some .fls := by decide

/-- Configurations R68 and R41 turn away: an origin one past its range, equal channels. -/
theorem test_configuration_refused :
    refuses .configuration (step { State.reset with params := { Params.default with ox := 196 } }) = true ∧
    refuses .configuration (step { State.reset with params := { Params.default with oy := -229 } }) = true ∧
    refuses .configuration (step { State.reset with params := { Params.default with chY := 0 } }) = true := by decide
theorem test_header_length : (State.resetWith { Params.default with fbHdrLen := 3 }).fbHdr = [0#8, 0#8, 0#8] := by decide

/-- A word placed by `withFetchWord` is what the next step runs. -/
theorem test_fetch_rdx : got (fun s => s.phase) (step (State.reset.withFetchWord 5 0x01)) = some .sely := by decide
theorem test_fetch_slpw : got (fun s => s.phase) (step (State.reset.withFetchWord 5 0x10)) = some .selx := by decide
theorem test_fetch_irqJ : got (fun s => s.irqPend) (step (State.reset.withFetchWord 1 0x1)) = some ⟨false, false⟩ := by decide
theorem test_fetch_rect : got (fun s => s.fb.pixel 0 0) (step (State.reset.withFetchWord 36 0x600000081)) = some true := by decide
theorem test_fetch_tick : got (fun s => s.timeMs) (step (State.reset.withFetchWord 4 0x0)) = some 1#32 := by decide
theorem test_step_bad_word : refuses (.invalidWord .reservedPhase) (step (State.reset.present (.phase 0b10001#5))) = true := by
  decide
theorem test_step_other_phase : refuses .otherPhase (exec .rdx State.reset) = true := by decide

/-- R71: `PRESS A` while the joystick button is held keeps the other line low. -/
theorem test_macro_press : (Macro.press .buttonA).lines ⟨true, false⟩ = [.input false false] := by decide
/-- R71: from (0, 0), `RELEASE A` and behind it `RELEASE J` are `INPUT 1 0` and `INPUT 1 1`. -/
theorem test_macro_current_levels :
    (({ State.reset with btnPrev := ⟨false, false⟩ } : State).loadAll [.release .buttonA, .release .joystick]).trace =
    [.event 0b0110#4, .event 0b0111#4] := by decide
/-- R70: the draw of a waiting read stays its own. -/
theorem test_macro_draws : (({ State.reset with trace := [.phase 0#5, .phase 1#5], draws := [9#12] } : State).load
    (.work 1#12 2#12)).draws = [9#12, 1#12, 2#12] := by decide
theorem test_macro_frame : ((Macro.frame 1#12 2#12).lines ⟨true, true⟩).length = 117 := by decide

/-! ## Witnesses: for each statement with hypotheses, a state and operands that meet them, each clause at a boundary -/

/-- A frame at `LVLX`, as a run leaves it: the stick at the right and at the bottom. -/
def midFrame (p : Phase) : State :=
  { atPhase p with rawX := 4095#12, rawY := 0#12, dx := 2047#12, dy := 2048#12, curX := 60#8, curY := 28#8 }

theorem midFrame_inv (p : Phase) (h : p = .lvlx ∨ p = .lvly) : Inv (midFrame p) := by
  rcases h with rfl | rfl <;> exact
    { green_mirrors := rfl
      pwm_legal := by simp [LegalLevel, midFrame, atPhase, State.reset, State.resetWith]
      lvl_legal := by simp [LegalLevel, midFrame, atPhase, State.reset, State.resetWith]
      deflection_range := by decide
      cursor_range := by decide
      selected := by decide
      mapped_x := by decide
      mapped_y := by decide
      mapped_cursor := by decide
      outputs_last := ⟨rfl, rfl, rfl⟩
      display_last := by simp [midFrame, atPhase, State.reset, State.resetWith]
      header_length := rfl }

theorem quiet_atPhase (p : Phase) : Quiet (atPhase p) := ⟨rfl, rfl⟩

theorem witness_SelectSwitchesConverter : Enabled .selx (atPhase .selx) ∧ Enabled .sely (atPhase .sely) :=
  ⟨⟨quiet_atPhase _, rfl⟩, ⟨quiet_atPhase _, rfl⟩⟩

theorem witness_ReadTakesEnvironmentSample :
    (Enabled .rdx { atPhase .rdx with draws := [4095#12] } ∧ ({ atPhase .rdx with draws := [4095#12] } : State).draws = 4095#12 :: []) ∧
    (Enabled .rdy { atPhase .rdy with draws := [0#12] } ∧ ({ atPhase .rdy with draws := [0#12] } : State).draws = 0#12 :: []) ∧
    (Enabled .rdx (atPhase .rdx) ∧ (atPhase .rdx).draws = []) ∧ (Enabled .rdy (atPhase .rdy) ∧ (atPhase .rdy).draws = []) :=
  ⟨⟨⟨⟨rfl, rfl⟩, rfl⟩, rfl⟩, ⟨⟨⟨rfl, rfl⟩, rfl⟩, rfl⟩, ⟨⟨quiet_atPhase _, rfl⟩, rfl⟩, ⟨⟨quiet_atPhase _, rfl⟩, rfl⟩⟩

theorem witness_DeadZoneMapsSample : Enabled .dzx { atPhase .dzx with rawX := 1848#12 } ∧
    Enabled .dzx { atPhase .dzx with rawX := 2249#12 } ∧ Enabled .dzy { atPhase .dzy with rawY := 4095#12 } :=
  ⟨⟨⟨rfl, rfl⟩, rfl⟩, ⟨⟨rfl, rfl⟩, rfl⟩, ⟨⟨rfl, rfl⟩, rfl⟩⟩

/-- Each branch, and both ends of the computed one, for either axis. -/
theorem witness_LevelFollowsModeAndDeflection (d : Deflection) (_ : d = 200#12 ∨ d = 2247#12) :
    Enabled .lvlx { atPhase .lvlx with dx := d } ∧ Enabled .lvlx { atPhase .lvlx with dx := d, ledEn := false } ∧
    Enabled .lvlx { atPhase .lvlx with dx := d, cenX := true } ∧ Enabled .lvly { atPhase .lvly with dy := d } ∧
    Enabled .lvly { atPhase .lvly with dy := d, ledEn := false } ∧ Enabled .lvly { atPhase .lvly with dy := d, cenY := true } :=
  ⟨⟨⟨rfl, rfl⟩, rfl⟩, ⟨⟨rfl, rfl⟩, rfl⟩, ⟨⟨rfl, rfl⟩, rfl⟩, ⟨⟨rfl, rfl⟩, rfl⟩, ⟨⟨rfl, rfl⟩, rfl⟩, ⟨⟨rfl, rfl⟩, rfl⟩⟩

/-- The computed branch's own premises hold of the reset modes at both its ends. -/
theorem witness_LevelFollowsModeAndDeflection_branch : (atPhase .lvlx).ledEn = true ∧ (atPhase .lvlx).cenX = false ∧
    (atPhase .lvly).cenY = false ∧ 200 ≤ (200#12).toNat ∧ (200#12).toNat ≤ 2247 ∧ (2247#12).toNat ≤ 2247 := by decide

theorem witness_DriveWritesLevel : Enabled .drvx { atPhase .drvx with lvlX := 3694#12 } ∧
    Enabled .drvy { atPhase .drvy with lvlY := 0#12 } := ⟨⟨⟨rfl, rfl⟩, rfl⟩, ⟨⟨rfl, rfl⟩, rfl⟩⟩

theorem witness_LevelIsFunctionOfSample : (Inv (midFrame .lvlx) ∧ Enabled .lvlx (midFrame .lvlx)) ∧
    (Inv (midFrame .lvly) ∧ Enabled .lvly (midFrame .lvly)) :=
  ⟨⟨midFrame_inv _ (.inl rfl), ⟨⟨rfl, rfl⟩, rfl⟩⟩, ⟨midFrame_inv _ (.inr rfl), ⟨⟨rfl, rfl⟩, rfl⟩⟩⟩

theorem witness_StaleLevelAfterTurnOff : ∃ s s' : State, (Enabled .lvlx s ∧ s.ledEn = true ∧ s.cenX = false ∧
      200 < s.dx.toNat ∧ s.dx.toNat ≤ 2048 ∧ s.btnPrev = ⟨true, true⟩ ∧ 200 < (s.timeMs - s.last).toNat) ∧
    (Enabled .lvlx s' ∧ s'.ledEn = true ∧ s'.cenX = false ∧
      200 < s'.dx.toNat ∧ s'.dx.toNat ≤ 2048 ∧ s'.btnPrev = ⟨true, false⟩ ∧ 200 < (s'.timeMs - s'.last).toNat) :=
  ⟨{ atPhase .lvlx with dx := 201#12, timeMs := 201#32 },
    { atPhase .lvlx with dx := 2048#12, timeMs := 100#32, last := 0xFFFFFF00#32, btnPrev := ⟨true, false⟩ },
    ⟨⟨⟨rfl, rfl⟩, rfl⟩, by decide⟩, ⟨⟨⟨rfl, rfl⟩, rfl⟩, by decide⟩⟩

theorem witness_CursorMapsSamples : Enabled .cmap { atPhase .cmap with rawX := 4095#12 } := ⟨⟨rfl, rfl⟩, rfl⟩

theorem witness_CursorMonotoneInRange : ∃ s s' t t' : State, exec .cmap s = .next s' ∧ exec .cmap t = .next t' ∧
    s.rawX.toNat ≤ t.rawX.toNat ∧ s.rawY.toNat ≤ t.rawY.toNat :=
  ⟨{ atPhase .cmap with rawX := 0#12, rawY := 0#12 }, _, { atPhase .cmap with rawX := 4095#12, rawY := 4095#12 }, _,
    rfl, rfl, by decide, by decide⟩

theorem witness_ClearDarkensEveryPixel : Enabled .clr { atPhase .clr with fb := Image.allDark.setPixel 127 63 } ∧
    Enabled .clear { State.reset with fb := Image.allDark.setPixel 0 0 } := ⟨⟨⟨rfl, rfl⟩, rfl⟩, ⟨rfl, rfl⟩⟩

theorem witness_BorderFollowsStyle (b : Border) : Enabled .brd { atPhase .brd with border := b } := ⟨⟨rfl, rfl⟩, rfl⟩

/-- Both ends of the cursor's register. -/
theorem witness_MarkerDrawnAtCursor (c : Cursor) (_ : c = 0x80#8 ∨ c = 0x7F#8) :
    Enabled .mrk { atPhase .mrk with curX := c, curY := c } := ⟨⟨rfl, rfl⟩, rfl⟩

/-- The second clause: the ends of the origin's and of the cursor's ranges. -/
theorem witness_MarkerDrawnAtCursor_exact : ∃ s s' : State,
    (Enabled .mrk s ∧ s.params.accepted = true ∧ s.params.ox = 195 ∧ s.params.oy = 227 ∧ s.curX.toInt = 60 ∧ s.curY.toInt = 28) ∧
    (Enabled .mrk s' ∧ s'.params.accepted = true ∧ s'.params.ox = -196 ∧ s'.params.oy = -228 ∧ s'.curX.toInt = -60 ∧
      s'.curY.toInt = -28) :=
  ⟨{ atPhase .mrk with params := { Params.default with ox := 195, oy := 227 }, curX := 60#8, curY := 28#8 },
    { atPhase .mrk with
      params := { Params.default with ox := -196, oy := -228 }, curX := BitVec.ofInt 8 (-60), curY := BitVec.ofInt 8 (-28) },
    ⟨⟨⟨rfl, rfl⟩, rfl⟩, by decide⟩, ⟨⟨⟨rfl, rfl⟩, rfl⟩, by decide⟩⟩

theorem witness_RectAddsItsPixels : Enabled (.rect false (-256) 255 255 127) State.reset ∧
    Enabled (.rect true 1000 (-1000) 0 0) State.reset := ⟨⟨rfl, rfl⟩, ⟨rfl, rfl⟩⟩

theorem witness_FlushReplacesDisplay : Enabled .fls { atPhase .fls with fb := Image.allDark.setPixel 5 6 } ∧
    Enabled .flush { State.reset with fb := Image.allDark.setPixel 5 6 } := ⟨⟨⟨rfl, rfl⟩, rfl⟩, ⟨rfl, rfl⟩⟩

/-- 100 ms across the wrap: enabled; 99 ms: held. -/
theorem witness_SleepWaitsHundredMs : Enabled .slpe (atPhase .slpe) ∧
    Enabled .slpw { atPhase .slpw with slpT0 := 0xFFFFFFCE#32, timeMs := 50#32 } ∧
    ∃ s : State, s.irqPend.a = false ∧ s.irqPend.j = false ∧ s.phase = .slpw ∧ (s.timeMs - s.slpT0).toNat = 99 :=
  ⟨⟨⟨rfl, rfl⟩, rfl⟩, ⟨⟨rfl, rfl⟩, rfl, by decide⟩,
    { atPhase .slpw with slpT0 := 0xFFFFFFCE#32, timeMs := 49#32 }, rfl, rfl, rfl, by decide⟩

theorem witness_AcceptedButtonAFlipsEnable : ∃ s s' : State,
    (Enabled .irqA s ∧ (s.timeMs - s.last).toNat = 201 ∧ s.ledEn = true) ∧
    (Enabled .irqA s' ∧ (s'.timeMs - s'.last).toNat = 201 ∧ s'.ledEn = false) :=
  ⟨pendingAt 201#32 0#32, { pendingAt 0x65#32 0xFFFFFF9C#32 with ledEn := false },
    ⟨rfl, by decide, rfl⟩, ⟨rfl, by decide, rfl⟩⟩

theorem witness_AcceptedJoystickFlipsGreen : Enabled .irqJ (pendingAt 201#32 0#32) ∧
    ((pendingAt 201#32 0#32).timeMs - (pendingAt 201#32 0#32).last).toNat = 201 := ⟨rfl, by decide⟩

theorem witness_DroppedPressChangesNothing : ∃ s : State, (s.timeMs - s.last).toNat = 200 ∧
    Enabled .irqA s ∧ Enabled .irqJ s := ⟨pendingAt 0x64#32 0xFFFFFF9C#32, by decide, rfl, rfl⟩

/-- For either pair of lines: the first accepted at 201, the second handled 200 ms later. -/
theorem witness_AcceptedPressSuppressesBoth (l l' : Line) : ∃ s t u : State, exec l.instr s = .next t ∧
    200 < (s.timeMs - s.last).toNat ∧ u.last = t.last ∧ u.irqPend.get l' = true ∧ (u.timeMs - s.timeMs).toNat = 200 :=
  ⟨pendingAt 201#32 0#32, effect l.instr (pendingAt 201#32 0#32), pendingAt 401#32 201#32,
    exec_next.2 ⟨by cases l <;> rfl, rfl⟩, by decide,
    by cases l <;> rfl, by cases l' <;> rfl, by decide⟩

theorem witness_SimultaneousPressesAtMostOne : ∃ s s' : State,
    Line.buttonA ≠ Line.joystick ∧ s.irqPend = ⟨true, true⟩ ∧ (s.timeMs - s.last).toNat = 201 ∧
    s'.irqPend = ⟨true, true⟩ ∧ (s'.timeMs - s'.last).toNat = 200 :=
  ⟨pendingAt 201#32 0#32, pendingAt 200#32 0#32, by decide, rfl, by decide, rfl, by decide⟩

/-- A run of accepted joystick presses, one a second after reset time zero. -/
def pressed (k : Nat) : State :=
  { pendingAt 1000#32 0#32 with
    border := if k % 3 = 0 then .none else if k % 3 = 1 then .thin else .full
    green := decide (k % 2 = 1) }

theorem witness_BorderCyclesModuloThree : (pressed 0).border = .none ∧ (pressed 0).green = false ∧
    ∀ k, 200 < ((pressed k).timeMs - (pressed k).last).toNat ∧
      ∃ t, exec .irqJ (pressed k) = .next t ∧ (pressed (k + 1)).border = t.border ∧ (pressed (k + 1)).green = t.green := by
  refine ⟨rfl, rfl, fun k => ⟨by simp [pressed, pendingAt], _, exec_next.2 ⟨rfl, rfl⟩, ?_⟩⟩
  rw [effect, gated_accepted (accepts_iff.2 (by simp [pressed, pendingAt]))]
  constructor
  · rcases (show k % 3 = 0 ∨ k % 3 = 1 ∨ k % 3 = 2 by omega) with h | h | h <;>
      simp [pressed, flipGreen, h, Nat.add_mod, Border.next]
  · rcases (show k % 2 = 0 ∨ k % 2 = 1 by omega) with h | h <;> simp [pressed, flipGreen, h, Nat.add_mod]

theorem witness_TickAddsOneMillisecond : Enabled .tick { State.reset with timeMs := 0xFFFFFFFF#32 } := ⟨rfl, rfl⟩

theorem witness_InputRaisesFallingEdges (a j : Bool) : Enabled (.input a j) { State.reset with btnPrev := ⟨true, false⟩ } :=
  ⟨rfl, rfl⟩

theorem witness_CompletesExactlyWhenEnabled : Enabled .selx State.reset ∧ ¬ Enabled .rdx State.reset :=
  ⟨⟨⟨rfl, rfl⟩, rfl⟩, fun h => absurd h.2 (by decide)⟩

theorem witness_PendingHoldsEverythingElse : ∃ s s' : State, (s.irqPend.a = true ∨ s.irqPend.j = true) ∧
    s.irqPend.j = false ∧ (s'.irqPend.a = true ∨ s'.irqPend.j = true) ∧ s'.irqPend.a = false ∧
    Instr.tick ≠ .irqA ∧ Instr.tick ≠ .irqJ ∧ Instr.tick ≠ .reset :=
  ⟨{ State.reset with irqPend := ⟨true, false⟩ }, { State.reset with irqPend := ⟨false, true⟩ },
    .inl rfl, rfl, .inr rfl, rfl, by decide, by decide, by decide⟩

theorem witness_StepRunsDecodedWord :
    (({ State.reset with trace := [.phase 0#5] } : State).trace = StepWord.phase 0#5 :: [] ∧ decode (.phase 0#5) = .ok .selx) ∧
    (({ State.reset with trace := [.phase 17#5] } : State).trace = StepWord.phase 17#5 :: [] ∧
      ∀ k, decode (.phase 17#5) ≠ .ok k) ∧
    (State.reset.trace = [] ∧ decode State.reset.freeWord = .ok .selx) ∧
    State.reset.params.accepted = true ∧ (Params.accepted { Params.default with ox := 196 }) = false :=
  ⟨⟨rfl, rfl⟩, ⟨rfl, fun _ h => nomatch h⟩, ⟨rfl, by decide⟩, by decide, by decide⟩

/-- The five cases: one line, the other line, both, a selected operation, and the sleep one millisecond short. -/
theorem witness_FreeRunPicksEnabledStep : ∃ s1 s2 s3 s4 s5 : State,
    (s1.trace = [] ∧ s1.irqPend = ⟨true, false⟩) ∧ (s2.trace = [] ∧ s2.irqPend = ⟨false, true⟩) ∧
    (s3.trace = [] ∧ s3.irqPend = ⟨true, true⟩) ∧ (s4.trace = [] ∧ Enabled s4.phase.instr s4) ∧
    (s5.trace = [] ∧ s5.irqPend = ⟨false, false⟩ ∧ ¬ Enabled s5.phase.instr s5) ∧
    s1.params.accepted = true ∧ s2.params.accepted = true ∧ s3.params.accepted = true ∧ s4.params.accepted = true ∧
    s5.params.accepted = true :=
  ⟨{ State.reset with irqPend := ⟨true, false⟩ }, { State.reset with irqPend := ⟨false, true⟩ },
    { State.reset with irqPend := ⟨true, true⟩ }, { atPhase .slpw with timeMs := 100#32 },
    { atPhase .slpw with timeMs := 99#32 },
    ⟨rfl, rfl⟩, ⟨rfl, rfl⟩, ⟨rfl, rfl⟩, ⟨rfl, ⟨rfl, rfl⟩, rfl, by decide⟩, ⟨rfl, rfl, fun h => absurd h.2.2 (by decide)⟩,
    by decide⟩

theorem witness_PhaseAdvancesInOrder : (∃ t, exec .slpw { atPhase .slpw with timeMs := 100#32 } = .next t) ∧
    IsForeground .slpw ∧ (∃ t, exec .tick State.reset = .next t) ∧ ¬ IsForeground .tick ∧ Instr.tick ≠ .reset ∧
    (∃ t, exec .reset (atPhase .fls) = .next t) :=
  ⟨⟨_, rfl⟩, ⟨.slpw, rfl⟩, ⟨_, rfl⟩, (fun ⟨p, h⟩ => by cases p <;> cases h), by decide, ⟨_, rfl⟩⟩

theorem witness_OnlyOwnersWrite : (∃ t, exec .irqA (pendingAt 201#32 0#32) = .next t) ∧ Instr.irqA ≠ .reset :=
  ⟨⟨_, exec_next.2 ⟨rfl, rfl⟩⟩, by decide⟩

theorem witness_ForegroundIgnoresHandlerPrivateState : IsForeground .brd ∧
    ∃ t, exec .brd { atPhase .brd with border := .full } = .next t :=
  ⟨⟨.brd, rfl⟩, ⟨_, exec_next.2 ⟨⟨⟨rfl, rfl⟩, rfl⟩, rfl⟩⟩⟩

theorem witness_StepKeepsInvariant : Inv (midFrame .lvlx) ∧ ∃ t, step (midFrame .lvlx) = .next t :=
  ⟨midFrame_inv _ (.inl rfl), ⟨_, rfl⟩⟩

/-- Both extremes of the stick, from a display and a buffer that are not dark. -/
theorem witness_FrameShowsSamples : ∃ s : State, s.params.accepted = true ∧ s.irqPend = ⟨false, false⟩ ∧ s.phase = .selx ∧
    s.draws = 4095#12 :: 0#12 :: [] ∧ s.trace = ((Macro.work 4095#12 0#12).lines s.btnPrev).map encode ++ [] :=
  ⟨State.load { State.reset with fb := Image.allDark.setPixel 5 6 } (.work 4095#12 0#12), by decide, rfl, rfl, rfl, rfl⟩

/-- A sleep across the wrap. -/
theorem witness_SleepLinesTakeHundredTicks : ∃ s : State, s.params.accepted = true ∧ s.irqPend = ⟨false, false⟩ ∧ s.phase = .slpe ∧
    s.timeMs = 0xFFFFFFCE#32 ∧ s.trace = (Macro.sleep.lines s.btnPrev).map encode ++ [] :=
  ⟨State.load { atPhase .slpe with timeMs := 0xFFFFFFCE#32 } .sleep, by decide, rfl, rfl, rfl, rfl⟩

/-- A press waits, and the joystick's press behind it keeps the line of Button A low. -/
theorem witness_LoadWaitsForItsTurn : ∃ t, Host.Core.run core 1 (State.reset.load (.press .buttonA)) = .next t ∧
    t.btnPrev = ⟨false, true⟩ ∧ (t.load (.press .joystick)).trace = [.event 0b0100#4] :=
  ⟨{ State.reset with btnPrev := ⟨false, true⟩, irqPend := ⟨true, false⟩ }, rfl, rfl, by decide⟩

/-- A frame with a tick after `SELX`, under a bound of one and under none, its sleep taken at once or 5 ms late. -/
theorem witness_FramePeriodIsHundredPlusWork (bound : Option Nat) (hb : bound = none ∨ bound = some 1) (d : Nat)
    (hd : d = 0 ∨ d = 5) : ∃ s : State,
    s.params.accepted = true ∧ s.params.workMs = bound ∧ s.irqPend = ⟨false, false⟩ ∧ s.phase = .selx ∧
    (.tick :: workLines.tail).filter (fun i => decide (i ≠ .tick)) = workLines.tail ∧ d + 100 < 2 ^ 32 ∧
    s.trace = (Instr.selx :: (Instr.tick :: workLines.tail) ++
      Instr.slpe :: (List.replicate (100 + d) Instr.tick ++ [Instr.slpw])).map encode ++ [] ∧
    s.params.workWithin ((.tick :: workLines.tail).countP fun i => decide (i = .tick)) :=
  ⟨{ State.resetWith { Params.default with workMs := bound } with
      trace := (Instr.selx :: (Instr.tick :: workLines.tail) ++
        Instr.slpe :: (List.replicate (100 + d) Instr.tick ++ [Instr.slpw])).map encode ++ [] },
    rfl, rfl, rfl, rfl, by decide, by omega, rfl, by
      rcases hb with rfl | rfl <;> intro b hb <;> cases hb; decide⟩

/-- Each clause at the ends of its range. -/
theorem witness_ReservedWordsRefused : 17 ≤ (17#5).toNat ∧ 17 ≤ (31#5).toNat ∧
    fieldFop 0xC00000000#36 = 3#2 ∧ fieldFop 0xFFFFFFFFF#36 = 3#2 ∧
    (fieldFop 0x000000001#36 = 0#2 ∧ fieldRest 0x000000001#36 ≠ 0#34) ∧
    (fieldFop 0xA00000000#36 = 2#2 ∧ fieldRest 0xA00000000#36 ≠ 0#34) ∧
    12 ≤ (12#4).toNat ∧ 12 ≤ (15#4).toNat ∧ ((1#4).toNat / 4 = 0 ∧ (1#4).toNat % 4 ≠ 0) ∧
    ((11#4).toNat / 4 = 2 ∧ (11#4).toNat % 4 ≠ 0) := by decide

theorem witness_DecodeEncodeRoundTrip : WellFormed (.rect false (-256) 255 255 127) := by decide

theorem witness_EncodeDecodeRoundTrip : decode (.command 0x5FFFFFFFF#36) = .ok (.rect false (-1) (-1) 255 127) := by decide

end Sys2Proof.Tests
end

section
/-! The phase: what moves it, and to where (R18, R151). -/

namespace Sys2Proof.Machine

variable {i : Instr} {p : Phase} {s t : State}

@[simp] theorem Phase.ofCode_code (p : Phase) : Phase.ofCode p.code = some p := by
  cases p <;> rfl

theorem Phase.code_injective : Function.Injective fun p : Phase => p.code.toNat := fun p q h =>
  Option.some.inj <| by rw [← Phase.ofCode_code p, ← Phase.ofCode_code q, BitVec.eq_of_toNat_eq h]

theorem Phase.code_lt (p : Phase) : p.code.toNat < 17 := by
  cases p <;> decide

@[simp] theorem Phase.next_code (p : Phase) : p.next.code.toNat = (p.code.toNat + 1) % 17 := by
  cases p <;> rfl

theorem Phase.next_injective : Function.Injective Phase.next := fun p q h => by
  have hcode : p.next.code.toNat = q.next.code.toNat := congrArg (fun r => r.code.toNat) h
  have hp := p.code_lt
  have hq := q.code_lt
  rw [Phase.next_code, Phase.next_code] at hcode
  exact Phase.code_injective (show p.code.toNat = q.code.toNat by omega)

/-- A phase from `q.next` on was entered from `q` or from a phase that is itself past `q`. -/
theorem Phase.eq_or_next_le {p q : Phase} (hq : 0 < q.next.code.toNat)
    (h : q.next.code.toNat ≤ p.next.code.toNat) : p = q ∨ q.next.code.toNat ≤ p.code.toNat := by
  rcases eq_or_ne p q with rfl | hne
  · exact .inl rfl
  · have hcode : p.code.toNat ≠ q.code.toNat := Phase.code_injective.ne hne
    have hp := p.code_lt
    have hq' := q.code_lt
    rw [Phase.next_code] at hq h ⊢
    rw [Phase.next_code] at h
    exact .inr (by omega)

/-- The effect of a foreground operation ends with the phase advance. -/
theorem effect_foreground_phase (p : Phase) (s : State) : (effect p.instr s).phase = p.next := by
  cases p <;> rfl

theorem quiet_phase_of_enabled (h : Enabled p.instr s) : Quiet s ∧ s.phase = p := by
  cases p with
  | slpw => exact ⟨h.1, h.2.1⟩
  | _ => exact h

/-- The frame of `IRQ_A`: what it does not name here it leaves (R84, R46). -/
theorem effect_irqA_eq : effect .irqA s =
    { s with
      ledEn := (effect .irqA s).ledEn
      pwmX := (effect .irqA s).pwmX
      pwmY := (effect .irqA s).pwmY
      last := (effect .irqA s).last
      irqPend := (effect .irqA s).irqPend
      outLog := (effect .irqA s).outLog } := by
  simp only [effect, gated]
  split
  · rw [flipLedEn_eq]; rfl
  · rfl

/-- The frame of `IRQ_J` (R85, R46). -/
theorem effect_irqJ_eq : effect .irqJ s =
    { s with
      green := (effect .irqJ s).green
      border := (effect .irqJ s).border
      greenOut := (effect .irqJ s).greenOut
      last := (effect .irqJ s).last
      irqPend := (effect .irqJ s).irqPend
      outLog := (effect .irqJ s).outLog } := by
  simp only [effect, gated]
  split
  · rw [flipGreen_eq]; rfl
  · rfl

/-- The frame of `BRD`, whichever commands the border needs (R132). -/
theorem effect_brd_eq : effect .brd s = { s with fb := (effect .brd s).fb, phase := .mrk } := by
  simp only [effect]
  rw [issue_border_eq]
  rfl

/-- An enabled instruction that is neither a foreground operation nor `RESET` leaves `PHASE`: the enabling condition of
a foreground operation names the phase that selects it. -/
theorem effect_phase_of_not_foreground (he : Enabled i s) (hi : ¬ IsForeground i) (hr : i ≠ .reset) :
    (effect i s).phase = s.phase := by
  cases i with
  | reset => exact absurd rfl hr
  | irqA => rw [effect_irqA_eq]
  | irqJ => rw [effect_irqJ_eq]
  | clear | rect | flush | tick | input => rfl
  | slpw => exact absurd ⟨.slpw, rfl⟩ hi
  | _ => exact absurd ⟨s.phase, by rw [he.2]; rfl⟩ hi

/-- Settles O31: a foreground operation is the selected one and ends with the phase advance; every other arm but
`RESET` frames `PHASE`. -/
theorem phaseAdvancesInOrder : Obligations.PhaseAdvancesInOrder := by
  unfold Obligations.PhaseAdvancesInOrder
  intro i s t h
  obtain ⟨he, rfl⟩ := exec_next.1 h
  refine ⟨?_, effect_phase_of_not_foreground he, ?_⟩
  · rintro ⟨p, rfl⟩
    obtain ⟨-, rfl⟩ := quiet_phase_of_enabled he
    exact ⟨rfl, by rw [effect_foreground_phase, Phase.next_code]⟩
  · rintro rfl
    rfl

/-! Who writes which register (R10, R46). -/

/-- Settles O32: the handler arms and `BRD` by their frames, each other effect by the fields its update names. -/
theorem onlyOwnersWrite : Obligations.OnlyOwnersWrite := by
  unfold Obligations.OnlyOwnersWrite
  intro i s t hexec hr
  obtain ⟨-, rfl⟩ := exec_next.1 hexec
  cases i with
  | reset => exact absurd rfl hr
  | irqA => rw [effect_irqA_eq]; simp
  | irqJ => rw [effect_irqJ_eq]; simp
  | brd => rw [effect_brd_eq]; simp
  | mrk => simp [effect, markerCommand]
  | rect fill x y w h =>
    have howner : ¬ ∀ f x' y' w' h', ¬ Instr.rect fill x y w h = .rect f x' y' w' h' := fun hn => hn _ _ _ _ _ rfl
    simp [effect, howner, -Instr.rect.injEq, -Bool.forall_bool]
  | _ => simp [effect]

/-! The registers only the handler uses, which the foreground neither reads nor writes (C4). -/

/-- The state with other values of `GREEN`, `GREEN_OUT` and `LAST`. -/
def State.withHandlerOwn (s : State) (g o : Bool) (l : Time) : State :=
  { s with green := g, greenOut := o, last := l }

theorem enabled_withHandlerOwn (p : Phase) (g o : Bool) (l : Time) :
    Enabled p.instr (s.withHandlerOwn g o l) ↔ Enabled p.instr s := by
  cases p <;> rfl

theorem issue_withHandlerOwn (cs : List FbCmd) (g o : Bool) (l : Time) :
    (s.withHandlerOwn g o l).issue cs = (s.issue cs).withHandlerOwn g o l := by
  induction cs generalizing s with
  | nil => rfl
  | cons c cs ih =>
    have hc : (s.withHandlerOwn g o l).runCommand c = (s.runCommand c).withHandlerOwn g o l := by
      cases c <;> rfl
    simp only [State.issue, List.foldl_cons, hc] at ih ⊢
    exact ih

/-- The effect of a foreground operation commutes with a change of these three registers. -/
theorem effect_withHandlerOwn (p : Phase) (g o : Bool) (l : Time) :
    effect p.instr (s.withHandlerOwn g o l) = (effect p.instr s).withHandlerOwn g o l := by
  cases p with
  | brd => exact congrArg (State.advance · .brd) (issue_withHandlerOwn _ g o l)
  | _ => rfl

/-- Settles O33: neither the enabling condition nor the effect of a foreground operation depends on the three
registers, and the effect leaves them. -/
theorem foregroundIgnoresHandlerPrivateState : Obligations.ForegroundIgnoresHandlerPrivateState := by
  unfold Obligations.ForegroundIgnoresHandlerPrivateState
  rintro _ s t g o l ⟨p, rfl⟩ h
  obtain ⟨he, rfl⟩ := exec_next.1 h
  exact exec_next.2 ⟨(enabled_withHandlerOwn p g o l).2 he, (effect_withHandlerOwn p g o l).symm⟩

/-! Accepted presses of the joystick button (R13, R85). -/

@[simp] theorem Border.next_code (b : Border) : b.next.code = (b.code + 1) % 3 := by
  cases b <;> rfl

/-- What an accepted `IRQ_J` does to the two modes. -/
theorem irqJ_accepted_modes (h : exec .irqJ s = .next t) (ha : 200 < (s.timeMs - s.last).toNat) :
    t.border = s.border.next ∧ t.green = !s.green := by
  obtain ⟨-, rfl⟩ := exec_next.1 h
  simp only [effect]
  rw [gated_accepted ((accepts_interruptEntry _).trans (accepts_iff.2 ha)), flipGreen_eq]
  exact ⟨rfl, rfl⟩

/-- Settles O21, by induction on the number of accepted presses. -/
theorem borderCyclesModuloThree : Obligations.BorderCyclesModuloThree := by
  unfold Obligations.BorderCyclesModuloThree
  intro f hb hg hstep n
  induction n with
  | zero => simp [hb, hg, Border.code]
  | succ n ih =>
    obtain ⟨ihb, ihg⟩ := ih
    obtain ⟨ha, t, ht, hb', hg'⟩ := hstep n
    obtain ⟨htb, htg⟩ := irqJ_accepted_modes ht ha
    constructor
    · rw [hb', htb, Border.next_code, ihb]
      omega
    · rw [hg', htg, ihg, ← decide_not, decide_eq_decide]
      omega

end Sys2Proof.Machine
end

section
/-! The invariant of the block: reset establishes it and every step keeps it (R15 to R24, R32, R33, R42, R43, R104,
R121). Each operation's effect is first shown to keep `Inv` at the phase it runs in; the phase advance is one lemma of
its own, which asks for what the operation has to leave for the next phase. -/

namespace Sys2Proof.Machine

variable {s : State}

theorem legalLevel_zero : LegalLevel 0#12 := ⟨Nat.zero_le _, rfl⟩

/-- The reset state meets the invariant under a configuration: every register is 0 and the phase is the first. -/
theorem inv_resetWith (p : Params) : Inv (State.resetWith p) where
  green_mirrors := rfl
  pwm_legal := ⟨legalLevel_zero, legalLevel_zero⟩
  lvl_legal := ⟨legalLevel_zero, legalLevel_zero⟩
  deflection_range := ⟨Nat.zero_le _, Nat.zero_le _⟩
  cursor_range := by simp [State.resetWith]
  selected := by simp [State.resetWith]
  mapped_x := by simp [State.resetWith, Phase.code]
  mapped_y := by simp [State.resetWith, Phase.code]
  mapped_cursor := by simp [State.resetWith, Phase.code]
  outputs_last := ⟨rfl, rfl, rfl⟩
  display_last := by simp [State.resetWith]
  header_length := by simp [State.resetWith]

/-- Settles O34: `State.reset` is the reset state of the default configuration. -/
theorem resetMeetsInvariant : Obligations.ResetMeetsInvariant :=
  ⟨inv_resetWith Params.default, inv_resetWith⟩

/-! What keeps the invariant at an unchanged phase. `{ h with }` is the proof where no register that `Inv` speaks of
changes; a clause named in it is one whose registers do. -/

theorem Inv.fetched (h : Inv s) : Inv s.fetched := by
  unfold State.fetched
  split <;> exact { h with }

theorem Inv.interruptEntry (h : Inv s) (l : Line) : Inv (s.interruptEntry l) := { h with }

theorem Inv.sampleLines (h : Inv s) (a j : Bool) : Inv (s.sampleLines a j) := { h with }

theorem Inv.afterReset (s : State) : Inv s.afterReset := { inv_resetWith s.params with }

/-- A legal level written to the X brightness channel (R43). -/
theorem Inv.outWrite_x (h : Inv s) {v : Level} (hv : LegalLevel v) : Inv (s.outWrite (.pwmX v)) :=
  { h with
    pwm_legal := ⟨hv, h.pwm_legal.2⟩
    outputs_last := by simpa [lastPwmX_append, lastPwmY_append, lastGreen_append] using h.outputs_last.2 }

/-- A legal level written to the Y brightness channel (R43). -/
theorem Inv.outWrite_y (h : Inv s) {v : Level} (hv : LegalLevel v) : Inv (s.outWrite (.pwmY v)) :=
  { h with
    pwm_legal := ⟨h.pwm_legal.1, hv⟩
    outputs_last := by
      simpa [lastPwmX_append, lastPwmY_append, lastGreen_append] using ⟨h.outputs_last.1, h.outputs_last.2.2⟩ }

/-- A framebuffer command: a flush shows the very image it appends to `FRAMES` (R140). -/
theorem Inv.runCommand (h : Inv s) (c : FbCmd) : Inv (s.runCommand c) :=
  match c with
  | .clear => { h with }
  | .rect .. => { h with }
  | .flush => { h with display_last := by simp }

theorem Inv.issue (h : Inv s) (cs : List FbCmd) : Inv (s.issue cs) := by
  induction cs generalizing s with
  | nil => exact h
  | cons c cs ih => exact ih (h.runCommand c)

theorem Inv.flipLedEn (h : Inv s) : Inv (flipLedEn s) := by
  have hen : Inv { s with ledEn := !s.ledEn } := { h with }
  simp only [Machine.flipLedEn]
  split
  · exact (hen.outWrite_x legalLevel_zero).outWrite_y legalLevel_zero
  · exact hen

/-- `GREEN` and its output move together (R17). -/
theorem Inv.flipGreen (h : Inv s) : Inv (flipGreen s) := by
  rw [flipGreen_eq]
  exact
    { h with
      green_mirrors := rfl
      outputs_last := by
        simpa [lastPwmX_append, lastPwmY_append, lastGreen_append] using ⟨h.outputs_last.1, h.outputs_last.2.1⟩ }

/-- The gate around an arm: `LAST` is not in the invariant. -/
theorem Inv.gated {flip : State → State} (h : Inv s) (hflip : Inv (flip s)) : Inv (gated flip s) := by
  unfold Machine.gated
  split
  · exact { hflip with }
  · exact h

/-! What a foreground operation does in its phase. A register that a later phase reads is not bound yet, so its clause
of the invariant holds because the phase comes before it. -/

theorem Inv.adcSelect (h : Inv s) (c : Channel) (hr : s.phase ≠ .rdx ∧ s.phase ≠ .rdy) : Inv (s.adcSelect c) :=
  { h with selected := ⟨fun hp => absurd hp hr.1, fun hp => absurd hp hr.2⟩ }

theorem Inv.readX (h : Inv s) (hp : s.phase.code.toNat < 5) : Inv { s.adcDone with rawX := s.adcSample } :=
  { h with
    mapped_x := fun hc => absurd hc (by simp; omega)
    mapped_cursor := fun hc => absurd hc (by simp; omega) }

theorem Inv.readY (h : Inv s) (hp : s.phase.code.toNat < 6) : Inv { s.adcDone with rawY := s.adcSample } :=
  { h with
    mapped_y := fun hc => absurd hc (by simp; omega)
    mapped_cursor := fun hc => absurd hc (by simp; omega) }

theorem deflection_le (v : Sample) : (deflection v).toNat ≤ 2048 :=
  (deflection_toNat v).trans_le (deflectionOf_le v)

/-- The deflection and the flag of a sample, as `DZX` and `DZY` compute them (R104, R105). -/
theorem deflection_centred (v : Sample) :
    (deflection v).toNat = ((2048 : Int) - v.toNat).natAbs ∧ (centred v = true ↔ (deflection v).toNat ≤ 200) := by
  simp [centred_iff]

theorem Inv.mapX (h : Inv s) : Inv { s with dx := deflection s.rawX, cenX := centred s.rawX } :=
  { h with
    deflection_range := ⟨deflection_le _, h.deflection_range.2⟩
    mapped_x := fun _ => deflection_centred s.rawX }

theorem Inv.mapY (h : Inv s) : Inv { s with dy := deflection s.rawY, cenY := centred s.rawY } :=
  { h with
    deflection_range := ⟨h.deflection_range.1, deflection_le _⟩
    mapped_y := fun _ => deflection_centred s.rawY }

theorem Inv.mapCursor (h : Inv s) : Inv { s with curX := cursorX s.rawX, curY := cursorY s.rawY } :=
  { h with
    cursor_range := by
      obtain ⟨hx, hx', -, -⟩ := specCur_range s.rawX
      obtain ⟨-, -, hy, hy'⟩ := specCur_range s.rawY
      simp [hx, hx', hy, hy']
    mapped_cursor := fun _ => ⟨cursorX_toInt _, cursorY_toInt _⟩ }

/-- From `DZX` on the level of the X axis is legal, because deflection and flag are those of one sample (R24, R116). -/
theorem Inv.levelX (h : Inv s) (hp : 5 ≤ s.phase.code.toNat) :
    Inv { s with lvlX := levelOf s.ledEn s.cenX s.dx } :=
  { h with lvl_legal := ⟨levelOf_legal _ _ _ h.deflection_range.1 (h.mapped_x hp).2, h.lvl_legal.2⟩ }

theorem Inv.levelY (h : Inv s) (hp : 6 ≤ s.phase.code.toNat) :
    Inv { s with lvlY := levelOf s.ledEn s.cenY s.dy } :=
  { h with lvl_legal := ⟨h.lvl_legal.1, levelOf_legal _ _ _ h.deflection_range.2 (h.mapped_y hp).2⟩ }

/-! The phase advance. -/

/-- What the operation of phase `p` has to leave so that the invariant holds at the next phase. -/
def Establishes (p : Phase) (s : State) : Prop :=
  match p with
  | .selx => s.adcSel = s.params.chX
  | .sely => s.adcSel = s.params.chY
  | .dzx => s.dx.toNat = ((2048 : Int) - s.rawX.toNat).natAbs ∧ (s.cenX = true ↔ s.dx.toNat ≤ 200)
  | .dzy => s.dy.toNat = ((2048 : Int) - s.rawY.toNat).natAbs ∧ (s.cenY = true ↔ s.dy.toNat ≤ 200)
  | .cmap => s.curX.toInt = specCurX s.rawX.toNat ∧ s.curY.toInt = specCurY s.rawY.toNat
  | .rdx | .rdy | .lvlx | .drvx | .lvly | .drvy | .clr | .brd | .mrk | .fls | .slpe | .slpw => True

/-- Each clause that binds at the next phase either bound already or is what the operation established. -/
theorem Inv.advance {p : Phase} (h : Inv s) (hp : s.phase = p) (he : Establishes p s) : Inv (s.advance p) := by
  subst hp
  have hest {q : Phase} (hq : s.phase = q) : Establishes q s := hq ▸ he
  exact
    { h with
      selected :=
        ⟨fun hn => hest (q := .selx) (Phase.next_injective hn),
          fun hn => hest (q := .sely) (Phase.next_injective hn)⟩
      mapped_x := fun hn => (Phase.eq_or_next_le (q := .dzx) (by decide) hn).elim hest h.mapped_x
      mapped_y := fun hn => (Phase.eq_or_next_le (q := .dzy) (by decide) hn).elim hest h.mapped_y
      mapped_cursor := fun hn => (Phase.eq_or_next_le (q := .cmap) (by decide) hn).elim hest h.mapped_cursor }

/-- A foreground operation keeps the invariant: its effect does, and the phase advance finds what it needs. -/
theorem Inv.effect_foreground {p : Phase} (h : Inv s) (hp : s.phase = p) : Inv (effect p.instr s) := by
  cases p with
  | selx => exact (h.adcSelect _ (by simp [hp])).advance hp rfl
  | rdx => exact (h.readX (by simp [hp, Phase.code])).advance hp trivial
  | sely => exact (h.adcSelect _ (by simp [hp])).advance hp rfl
  | rdy => exact (h.readY (by simp [hp, Phase.code])).advance hp trivial
  | dzx => exact h.mapX.advance hp (deflection_centred _)
  | dzy => exact h.mapY.advance hp (deflection_centred _)
  | cmap => exact h.mapCursor.advance hp ⟨cursorX_toInt _, cursorY_toInt _⟩
  | lvlx => exact (h.levelX (by simp [hp, Phase.code])).advance hp trivial
  | drvx => exact (h.outWrite_x h.lvl_legal.1).advance hp trivial
  | lvly => exact (h.levelY (by simp [hp, Phase.code])).advance hp trivial
  | drvy => exact (h.outWrite_y h.lvl_legal.2).advance hp trivial
  | clr => exact (h.issue _).advance hp trivial
  | brd => exact (h.issue _).advance (by rw [issue_border_eq]; exact hp) trivial
  | mrk => exact (h.issue _).advance hp trivial
  | fls => exact (h.issue _).advance hp trivial
  | slpe => exact Inv.advance (s := { s with slpT0 := s.timeMs }) { h with } hp trivial
  | slpw => exact h.advance hp trivial

/-- Every enabled instruction keeps the invariant. -/
theorem Inv.effect_of_enabled {i : Instr} (h : Inv s) (he : Enabled i s) : Inv (effect i s) := by
  cases i with
  | irqA => exact (h.interruptEntry _).gated (h.interruptEntry _).flipLedEn
  | irqJ => exact (h.interruptEntry _).gated (h.interruptEntry _).flipGreen
  | clear => exact h.runCommand .clear
  | rect fill x y w h' => exact h.runCommand (.rect fill x y w h')
  | flush => exact h.runCommand .flush
  | tick => exact { h with }
  | input a j => exact h.sampleLines a j
  | reset => exact Inv.afterReset s
  | slpw => exact h.effect_foreground he.2.1
  | _ => exact h.effect_foreground he.2

/-- Settles O35: the fetch keeps the invariant, and so does the effect of the instruction that runs. -/
theorem stepKeepsInvariant : Obligations.StepKeepsInvariant := by
  unfold Obligations.StepKeepsInvariant
  intro s t h hstep
  obtain ⟨-, i, -, he, rfl⟩ := step_next_effect.1 hstep
  exact h.fetched.effect_of_enabled he

end Sys2Proof.Machine
end

section
/-! The encoding: a step word decodes to an instruction exactly when the instruction is well formed and encodes to that
word (R60 to R67, R73). -/

namespace Sys2Proof

variable {i : Instr} {w : StepWord}

/-! Format F, an equation for each operation code and unused field (R64, R65, R73). -/

variable {c : BitVec 36}

theorem decodeCommand_rect (hfop : fieldFop c = 1#2) :
    decodeCommand c = .ok (.rect (fieldFill c) (fieldX c) (fieldY c) (fieldW c) (fieldH c)) := by
  simp [decodeCommand, hfop]

theorem decodeCommand_clear (hfop : fieldFop c = 0#2) (hrest : fieldRest c = 0#34) :
    decodeCommand c = .ok .clear := by
  simp [decodeCommand, hfop, hrest]

theorem decodeCommand_flush (hfop : fieldFop c = 2#2) (hrest : fieldRest c = 0#34) :
    decodeCommand c = .ok .flush := by
  simp [decodeCommand, hfop, hrest]

theorem decodeCommand_stray (hfop : fieldFop c = 0#2 ∨ fieldFop c = 2#2) (hrest : fieldRest c ≠ 0#34) :
    decodeCommand c = .error .strayBits := by
  rcases hfop with hfop | hfop <;> simp [decodeCommand, hfop, hrest]

theorem decodeCommand_reserved (hfop : fieldFop c = 3#2) : decodeCommand c = .error .reservedFrameOp := by
  simp [decodeCommand, hfop]

/-! Encode, then decode. Only `RECT` has operands that its fields could cut off. -/

theorem decode_encode_rect {fill : Bool} {x y : Int} {w h : Nat} (hwf : WellFormed (.rect fill x y w h)) :
    decode (encode (.rect fill x y w h)) = .ok (.rect fill x y w h) := by
  obtain ⟨⟨hx, hx'⟩, ⟨hy, hy'⟩, hw, hh⟩ := wellFormed_rect.1 hwf
  rw [encode, decode, decodeCommand_rect (fieldFop_commandWord _ _ _ _ _ _), fieldFill_commandWord,
    fieldX_commandWord _ _ _ _ _ _ hx hx', fieldY_commandWord _ _ _ _ _ _ hy hy',
    fieldW_commandWord _ _ _ _ _ _ hw, fieldH_commandWord _ _ _ _ _ _ hh]

theorem decode_encode (hwf : WellFormed i) : decode (encode i) = .ok i := by
  cases i with
  | rect => exact decode_encode_rect hwf
  | input a j => cases a <;> cases j <;> rfl
  | _ => rfl

/-- Settles O40: the fields of an encoded `RECT` hold its operands whole, and the other words are evaluated. -/
theorem decodeEncodeRoundTrip : Obligations.DecodeEncodeRoundTrip := fun _ => decode_encode

/-! Decode, then encode. Formats P, I and E have few words, and each is evaluated. -/

theorem encode_of_decodePhase :
    ∀ op i, (decodePhase op).toOption = some i → WellFormed i ∧ encode i = .phase op := by
  decide

theorem encode_decodeIrq : ∀ line, WellFormed (decodeIrq line) ∧ encode (decodeIrq line) = .irq line := by
  decide

theorem encode_of_decodeEvent :
    ∀ e i, (decodeEvent e).toOption = some i → WellFormed i ∧ encode i = .event e := by
  decide

/-! In format F the fields together are all bits of the word (R64). -/

theorem ofBool_fieldFill (c : BitVec 36) : BitVec.ofBool (fieldFill c) = c.extractLsb' 33 1 := by
  ext k hk
  obtain rfl : k = 0 := by omega
  simp [fieldFill]

theorem commandWord_fields (c : BitVec 36) :
    commandWord (fieldFop c) (fieldFill c) (fieldX c) (fieldY c) (fieldW c) (fieldH c) = c := by
  simp only [commandWord, ofBool_fieldFill, fieldFop, fieldX, fieldY, fieldW, fieldH, BitVec.ofInt_toInt,
    BitVec.ofNat_toNat, BitVec.setWidth_eq]
  iterate 5 rw [BitVec.extractLsb'_append_extractLsb'_eq_extractLsb' (by rfl)]
  exact BitVec.extractLsb'_eq_self

theorem fieldFop_append_fieldRest (c : BitVec 36) : fieldFop c ++ fieldRest c = c := by
  rw [fieldFop, fieldRest, BitVec.extractLsb'_append_extractLsb'_eq_extractLsb' (by rfl)]
  exact BitVec.extractLsb'_eq_self

/-- A command word whose operand fields are zero is determined by its operation code (R65). -/
theorem commandWord_zero : ∀ fop, commandWord fop false 0 0 0 0 = fop ++ 0#34 := by
  decide

theorem commandWord_of_fieldRest_eq_zero (h : fieldRest c = 0#34) :
    commandWord (fieldFop c) false 0 0 0 0 = c := by
  rw [commandWord_zero, ← h, fieldFop_append_fieldRest]

theorem fieldRest_eq_zero_of_decodeCommand (h : decodeCommand c = .ok i)
    (hfop : fieldFop c = 0#2 ∨ fieldFop c = 2#2) : fieldRest c = 0#34 :=
  by_contra fun hrest => nomatch (decodeCommand_stray hfop hrest).symm.trans h

theorem encode_of_decodeCommand (h : decodeCommand c = .ok i) : WellFormed i ∧ encode i = .command c := by
  have hfops : ∀ fop : BitVec 2, fop = 0#2 ∨ fop = 1#2 ∨ fop = 2#2 ∨ fop = 3#2 := by decide
  rcases hfops (fieldFop c) with hfop | hfop | hfop | hfop
  · have hrest := fieldRest_eq_zero_of_decodeCommand h (.inl hfop)
    obtain rfl := Except.ok.inj ((decodeCommand_clear hfop hrest).symm.trans h)
    exact ⟨rfl, congrArg StepWord.command (hfop ▸ commandWord_of_fieldRest_eq_zero hrest)⟩
  · obtain rfl := Except.ok.inj ((decodeCommand_rect hfop).symm.trans h)
    exact ⟨wellFormed_rect.2 (fields_range c), congrArg StepWord.command (by rw [← hfop, commandWord_fields])⟩
  · have hrest := fieldRest_eq_zero_of_decodeCommand h (.inr hfop)
    obtain rfl := Except.ok.inj ((decodeCommand_flush hfop hrest).symm.trans h)
    exact ⟨rfl, congrArg StepWord.command (hfop ▸ commandWord_of_fieldRest_eq_zero hrest)⟩
  · exact nomatch (decodeCommand_reserved hfop).symm.trans h

/-- Decoding loses no bit of a word: the encoder gives it back. -/
theorem encode_of_decode (h : decode w = .ok i) : WellFormed i ∧ encode i = w := by
  cases w with
  | phase op => exact encode_of_decodePhase op i (congrArg Except.toOption h)
  | irq line => exact Except.ok.inj h ▸ encode_decodeIrq line
  | command c => exact encode_of_decodeCommand h
  | event e => exact encode_of_decodeEvent e i (congrArg Except.toOption h)

theorem decode_eq_ok : decode w = .ok i ↔ WellFormed i ∧ encode i = w :=
  ⟨encode_of_decode, fun ⟨hwf, hw⟩ => hw ▸ decode_encode hwf⟩

/-- Settles O41, format by format. -/
theorem encodeDecodeRoundTrip : Obligations.EncodeDecodeRoundTrip := fun _ _ => encode_of_decode

/-- Settles O38: each word is the one its instruction encodes to. -/
theorem tableWordsDecode : Obligations.TableWordsDecode := by
  unfold Obligations.TableWordsDecode
  simp only [decode_eq_ok]
  decide

/-- Settles O39: the command words by their two fields, the words of the other formats by evaluation. -/
theorem reservedWordsRefused : Obligations.ReservedWordsRefused := by
  refine ⟨?_, fun _ => decodeCommand_reserved, fun _ => decodeCommand_stray, ?_, ?_⟩
  · decide
  · decide
  · decide

end Sys2Proof
end

section
/-! Runs over a presented trace: a step takes the first word, and the words of enabled instructions have their effects
one after the other (R70, R72). -/

namespace Sys2Proof.Machine

variable {i : Instr} {is : List Instr} {s t u : State} {w : StepWord} {ws : List StepWord} {ds : List Sample}

theorem nextWord_cons (h : s.trace = w :: ws) : s.nextWord = w := by
  simp [State.nextWord, h]

theorem nextWord_nil (h : s.trace = []) : s.nextWord = s.freeWord := by
  simp [State.nextWord, h]

theorem step_of_decode_ne_ok (ha : s.params.accepted = true) (h : ∀ k, decode s.nextWord ≠ .ok k) :
    ∃ e, step s = .refused (.invalidWord e) := by
  cases hd : decode s.nextWord with
  | ok k => exact absurd hd (h k)
  | error e => exact ⟨e, by simp [step, ha, hd]⟩

/-- Settles O29: the next word and the state after the fetch, with a word presented and with none. -/
theorem stepRunsDecodedWord : Obligations.StepRunsDecodedWord := by
  unfold Obligations.StepRunsDecodedWord
  intro s w ws i
  refine ⟨fun ha ht hd => ?_, fun ha ht hd => ?_, fun ha ht hd => ?_, step_of_not_accepted⟩
  · rw [step_of_decode ha ((nextWord_cons ht).symm ▸ hd), State.fetched_cons s w ws ht]
  · exact step_of_decode_ne_ok ha ((nextWord_cons ht).symm ▸ hd)
  · rw [step_of_decode ha ((nextWord_nil ht).symm ▸ hd), State.fetched_nil s ht]

/-! The environment's two lists. No instruction reads the trace, and only `RDX` and `RDY` take a sample. -/

/-- The state with other lists of words and of samples. -/
def State.withInputs (s : State) (ws : List StepWord) (ds : List Sample) : State :=
  { s with trace := ws, draws := ds }

/-- How many samples an instruction takes. -/
def reads (i : Instr) : Nat :=
  match i with
  | .rdx | .rdy => 1
  | _ => 0

theorem enabled_withInputs : Enabled i (s.withInputs ws ds) ↔ Enabled i s := by
  cases i <;> rfl

theorem adcDone_withInputs (h : (s.withInputs ws ds).adcSample = s.adcSample) :
    (s.withInputs ws ds).adcDone = s.adcDone.withInputs ws (ds.drop 1) := by
  simp only [State.adcDone, h]
  simp [State.withInputs]

theorem issue_border_withInputs (b : Border) :
    (s.withInputs ws ds).issue (borderCommands b) = (s.issue (borderCommands b)).withInputs ws ds := by
  cases b <;> rfl

theorem flipLedEn_withInputs : flipLedEn (s.withInputs ws ds) = (flipLedEn s).withInputs ws ds := by
  cases h : s.ledEn <;> simp [flipLedEn, State.withInputs, State.outWrite, h]

theorem gated_withInputs {flip : State → State} (h : flip (s.withInputs ws ds) = (flip s).withInputs ws ds) :
    gated flip (s.withInputs ws ds) = (gated flip s).withInputs ws ds := by
  have ha : accepts (s.withInputs ws ds) = accepts s := rfl
  simp only [gated, ha]
  split
  · rw [h]; rfl
  · rfl

/-- An instruction's effect does not depend on the two lists, but for the answer to its own read. -/
theorem effect_withInputs (h : reads i = 1 → (s.withInputs ws ds).adcSample = s.adcSample) :
    effect i (s.withInputs ws ds) = (effect i s).withInputs ws (ds.drop (reads i)) := by
  cases i with
  | rdx => simp only [effect, adcDone_withInputs (h rfl), h rfl]; rfl
  | rdy => simp only [effect, adcDone_withInputs (h rfl), h rfl]; rfl
  | irqA => exact gated_withInputs (s := s.interruptEntry .buttonA) flipLedEn_withInputs
  | irqJ => exact gated_withInputs (s := s.interruptEntry .joystick) rfl
  | brd => exact congrArg (State.advance · .brd) (issue_border_withInputs _)
  | _ => rfl

/-- A step that answers a next state takes the first word of the trace. -/
theorem step_cons_next (h : s.trace = w :: ws) : step s = .next t ↔
    s.params.accepted = true ∧ ∃ i, decode w = .ok i ∧ Enabled i s ∧ t = effect i (s.withInputs ws s.draws) := by
  have hf : s.fetched = s.withInputs ws s.draws := State.fetched_cons s w ws h
  simp only [step_next_effect, nextWord_cons h, hf, enabled_withInputs]

/-- What an instruction leaves in the two lists: the trace stays, and its own reads use up their samples. -/
theorem effect_inputs : (effect i s).trace = s.trace ∧ (effect i s).draws = s.draws.drop (reads i) := by
  have h : effect i s = (effect i s).withInputs s.trace (s.draws.drop (reads i)) :=
    effect_withInputs (s := s) fun _ => rfl
  rw [h]
  exact ⟨rfl, rfl⟩

/-- Each read takes one number of the free-value counter, and nothing writes the configuration. -/
theorem effect_freeCount_params :
    (effect i s).freeCount = s.freeCount + reads i ∧ (effect i s).params = s.params := by
  cases i with
  | irqA => rw [effect_irqA_eq]; exact ⟨rfl, rfl⟩
  | irqJ => rw [effect_irqJ_eq]; exact ⟨rfl, rfl⟩
  | brd => rw [effect_brd_eq]; exact ⟨rfl, rfl⟩
  | _ => exact ⟨rfl, rfl⟩

/-- A step under other lists: the word at the head of the trace has its effect, if its read is given the same answer. -/
theorem step_withInputs (ha : s.params.accepted = true) (hd : decode w = .ok i) (he : Enabled i s)
    (h : reads i = 1 → (s.withInputs ws ds).adcSample = s.adcSample) :
    step (s.withInputs (w :: ws) ds) = .next ((effect i s).withInputs ws (ds.drop (reads i))) := by
  rw [← effect_withInputs h]
  exact (step_cons_next rfl).2 ⟨ha, i, hd, enabled_withInputs.2 he, rfl⟩

theorem run_succ_next {k : Nat} :
    Host.Core.run core (k + 1) s = .next t ↔ ∃ u, step s = .next u ∧ Host.Core.run core k u = .next t := by
  have hstep : core.step s = step s := rfl
  simp only [Host.Core.run, hstep]
  split
  next u hu =>
    refine ⟨fun h => ⟨u, hu, h⟩, fun ⟨v, hv, h⟩ => ?_⟩
    obtain rfl := Host.Outcome.next.inj (hu.symm.trans hv)
    exact h
  next hf => simp [hf]
  next hr => simp [hr]

/-! A presented sequence of instructions, each enabled where its turn comes. -/

/-- The state a sequence of instructions leaves. -/
def effects (is : List Instr) (s : State) : State :=
  is.foldl (fun t i => effect i t) s

/-- Each instruction of the sequence has a word and is enabled where the ones before it lead. -/
def EnabledAll : List Instr → State → Prop
  | [], _ => True
  | i :: is, s => WellFormed i ∧ Enabled i s ∧ EnabledAll is (effect i s)

theorem run_withInputs (ha : s.params.accepted = true) (he : EnabledAll is s) :
    Host.Core.run core is.length (s.withInputs (is.map encode ++ ws) s.draws) =
      .next ((effects is s).withInputs ws (effects is s).draws) := by
  induction is generalizing s with
  | nil => rfl
  | cons i is ih =>
    obtain ⟨hwf, hi, his⟩ := he
    refine run_succ_next.2 ⟨_, step_withInputs ha (decode_encode hwf) hi fun _ => rfl, ?_⟩
    rw [← effect_inputs.2]
    exact ih (by rwa [effect_freeCount_params.2]) his

/-- A run over the words of a sequence has its effects and uses the words up. -/
theorem run_effects (ha : s.params.accepted = true) (he : EnabledAll is s) (ht : s.trace = is.map encode ++ ws) :
    Host.Core.run core is.length s = .next ({ effects is s with trace := ws } : State) := by
  have h := run_withInputs (ws := ws) ha he
  rwa [← ht] at h

end Sys2Proof.Machine
end

section
/-! A pseudo-operation presented behind waiting words (R70, R71). -/

namespace Sys2Proof.Machine

variable {i : Instr} {s t u : State} {w : StepWord} {ws : List StepWord}

/-- The answers of the next `n` reads, as `waitingDraws` gives them for the reads that wait. -/
def State.answers (s : State) (n : Nat) : List Sample :=
  (List.range n).map fun k => (s.draws[k]?).getD (Config.adcDraw (s.freeCount + k))

theorem waitingDraws_eq : s.waitingDraws = s.answers (s.trace.countP isRead) := rfl

@[simp] theorem answers_length (n : Nat) : (s.answers n).length = n := by
  simp [State.answers]

theorem answers_one : s.answers 1 = [s.adcSample] := by
  cases h : s.draws <;> simp [State.answers, State.adcSample, h]

/-- The answers after an instruction are the ones behind those its own reads got. -/
theorem answers_add (n : Nat) :
    s.answers (reads i + n) = s.answers (reads i) ++ (effect i s).answers n := by
  obtain ⟨hc, -⟩ := effect_freeCount_params (i := i) (s := s)
  simp [State.answers, List.range_add, effect_inputs.2, hc, Nat.add_assoc]

theorem countP_isRead_cons (h : decode w = .ok i) : (w :: ws).countP isRead = reads i + ws.countP isRead := by
  have hw : (if isRead w then 1 else 0) = reads i := by
    rw [isRead, h]
    cases i <;> rfl
  rw [List.countP_cons, hw, Nat.add_comm]

theorem load_eq_withInputs (m : Macro) (ht : s.trace = ws) : s.load m =
    s.withInputs (ws ++ (m.lines (levelsAfter s.btnPrev ws)).map encode)
      (s.answers (ws.countP isRead) ++ (m.draws ++ s.draws.drop (ws.countP isRead))) := by
  rw [← ht, ← List.append_assoc, ← waitingDraws_eq]
  rfl

/-- The commuting diagram: presenting a pseudo-operation and taking a waiting word give the same in either order. -/
theorem step_load {m : Macro} (ht : s.trace = w :: ws) (h : step s = .next u) :
    step (s.load m) = .next (u.load m) := by
  obtain ⟨ha, i, hd, he, rfl⟩ := (step_cons_next ht).1 h
  have hu : effect i (s.withInputs ws s.draws) = (effect i s).withInputs ws (effect i s).draws := by
    rw [effect_withInputs fun _ => rfl, effect_inputs.2]
  have hanswer (ds : List Sample) (vs : List StepWord) (hr : reads i = 1) :
      (s.withInputs vs (s.answers (reads i) ++ ds)).adcSample = s.adcSample := by
    rw [hr, answers_one]
    rfl
  rw [load_eq_withInputs m ht, countP_isRead_cons hd, answers_add, List.append_assoc, List.cons_append,
    step_withInputs ha hd he (hanswer _ _), List.drop_left' (answers_length _), levelsAfter_cons,
    ← effect_btnPrev (s := s) hd, ← List.drop_drop, ← effect_inputs.2, hu, load_eq_withInputs m (ws := ws) rfl]
  rfl

theorem run_load {m : Macro} (ht : s.trace = ws) (h : Host.Core.run core ws.length s = .next t) :
    Host.Core.run core ws.length (s.load m) = .next (t.load m) ∧ t.trace = [] := by
  induction ws generalizing s with
  | nil =>
    obtain rfl := Host.Outcome.next.inj h
    exact ⟨rfl, ht⟩
  | cons w ws ih =>
    obtain ⟨u, hu, hrun⟩ := run_succ_next.1 h
    have hut : u.trace = ws := by
      obtain ⟨-, i, -, -, rfl⟩ := (step_cons_next ht).1 hu
      exact effect_inputs.1
    obtain ⟨hload, hnil⟩ := ih hut hrun
    exact ⟨run_succ_next.2 ⟨_, step_load ht hu, hload⟩, hnil⟩

/-- Settles O42, by induction on the waiting words. -/
theorem loadWaitsForItsTurn : Obligations.LoadWaitsForItsTurn := fun _ _ _ => run_load rfl

end Sys2Proof.Machine
end

section
/-! The lines of `SLEEP` and of `WORK`, from a state with nothing pending (R71). -/

namespace Sys2Proof.Machine

variable {is : List Instr} {p : Phase} {s : State}

theorem effects_cons (i : Instr) (is : List Instr) : effects (i :: is) s = effects is (effect i s) := rfl

theorem effects_append (is js : List Instr) : effects (is ++ js) s = effects js (effects is s) :=
  List.foldl_append

/-! `SLEEP`. -/

theorem add_ofNat_succ (t : Time) (n : Nat) : t + BitVec.ofNat 32 (n + 1) = t + 1#32 + BitVec.ofNat 32 n := by
  rw [BitVec.ofNat_add, BitVec.add_comm (BitVec.ofNat 32 n), ← BitVec.add_assoc]

theorem enabledAll_ticks (n : Nat) (hq : Quiet s)
    (h : EnabledAll is { s with timeMs := s.timeMs + BitVec.ofNat 32 n }) :
    EnabledAll (List.replicate n .tick ++ is) s := by
  induction n generalizing s with
  | zero => simpa using h
  | succ n ih =>
    rw [add_ofNat_succ] at h
    exact ⟨rfl, hq, ih hq h⟩

theorem effects_ticks (n : Nat) :
    effects (List.replicate n .tick) s = { s with timeMs := s.timeMs + BitVec.ofNat 32 n } := by
  induction n generalizing s with
  | zero => simp [effects]
  | succ n ih =>
    rw [add_ofNat_succ]
    exact ih

theorem enabledAll_sleepLines (hq : Quiet s) (hp : s.phase = .slpe) : EnabledAll sleepLines s := by
  refine ⟨rfl, ⟨hq, hp⟩, enabledAll_ticks 100 hq ⟨rfl, ⟨hq, rfl, ?_⟩, trivial⟩⟩
  simp [effect]

theorem effects_sleepLines :
    effects sleepLines s = { s with phase := .selx, slpT0 := s.timeMs, timeMs := s.timeMs + 100#32 } := by
  rw [sleepLines, effects_cons, effects_append, effects_ticks]
  rfl

/-- Settles O37: the run has the effects of the lines, each enabled in its turn. -/
theorem sleepLinesTakeHundredTicks : Obligations.SleepLinesTakeHundredTicks := by
  unfold Obligations.SleepLinesTakeHundredTicks
  intro s ws ha hirq hp ht
  have hq : Quiet s := by simp [Quiet, hirq]
  refine (run_effects ha (enabledAll_sleepLines hq hp) ht).trans ?_
  rw [effects_sleepLines]

/-! `WORK`: its lines are the operations of consecutive phases. -/

theorem wellFormed_phase (p : Phase) : WellFormed p.instr := by
  cases p <;> rfl

theorem enabled_foreground (hq : Quiet s) (hp : s.phase = p) (hne : p ≠ .slpw) : Enabled p.instr s := by
  cases p with
  | slpw => exact absurd rfl hne
  | _ => exact ⟨hq, hp⟩

theorem effect_foreground_irqPend (p : Phase) (s : State) : (effect p.instr s).irqPend = s.irqPend := by
  cases p with
  | brd => rw [Phase.instr, effect_brd_eq]
  | _ => rfl

/-- `n` phases in their order, from `p` on. -/
def phasesFrom (p : Phase) : Nat → List Phase
  | 0 => []
  | n + 1 => p :: phasesFrom p.next n

theorem workLines_eq : workLines = (phasesFrom .selx 15).map Phase.instr := rfl

/-- Operations in the order of their phases enable one another, up to the sleep. -/
theorem enabledAll_phasesFrom (n : Nat) (hq : Quiet s) (hp : s.phase = p) (hn : p.code.toNat + n ≤ 16) :
    EnabledAll ((phasesFrom p n).map Phase.instr) s := by
  induction n generalizing p s with
  | zero => trivial
  | succ n ih =>
    have hne : p ≠ .slpw := by
      rintro rfl
      simp [Phase.code] at hn
    refine ⟨wellFormed_phase p, enabled_foreground hq hp hne, ih ?_ (effect_foreground_phase p s) ?_⟩
    · rwa [Quiet, effect_foreground_irqPend]
    · rw [Phase.next_code]
      omega

theorem enabledAll_workLines (hq : Quiet s) (hp : s.phase = .selx) : EnabledAll workLines s :=
  enabledAll_phasesFrom 15 hq hp (by decide)

/-! The effects of `WORK`: what the composer starts from, then what it draws. -/

/-- The lines of the sampler, the mappers and the brightness scaler. -/
def axisLines : List Instr :=
  [.selx, .rdx, .sely, .rdy, .dzx, .dzy, .cmap, .lvlx, .drvx, .lvly, .drvy]

def composerLines : List Instr := [.clr, .brd, .mrk, .fls]

theorem workLines_eq_units : workLines = axisLines ++ composerLines := rfl

/-- The state in which the composer starts, the samples being `x` and `y` with `vs` behind them. -/
def State.composing (s : State) (x y : Sample) (vs : List Sample) : State :=
  { s with
    adcSel := s.params.chY
    rawX := x
    rawY := y
    draws := vs
    freeCount := s.freeCount + 2
    adcLog := s.adcLog ++
      [.select s.params.chX, .read s.params.chX x, .select s.params.chY, .read s.params.chY y]
    dx := deflection x
    cenX := centred x
    dy := deflection y
    cenY := centred y
    curX := cursorX x
    curY := cursorY y
    lvlX := levelOf s.ledEn (centred x) (deflection x)
    pwmX := levelOf s.ledEn (centred x) (deflection x)
    lvlY := levelOf s.ledEn (centred y) (deflection y)
    pwmY := levelOf s.ledEn (centred y) (deflection y)
    outLog := s.outLog ++
      [.pwmX (levelOf s.ledEn (centred x) (deflection x)), .pwmY (levelOf s.ledEn (centred y) (deflection y))]
    phase := .clr }

theorem effects_axisLines {x y : Sample} {vs : List Sample} (h : s.draws = x :: y :: vs) :
    effects axisLines s = s.composing x y vs := by
  simp [effects, axisLines, effect, State.composing, State.adcSelect, State.adcDone, State.adcSample,
    State.outWrite, State.advance, Phase.next, h]

/-- The buffer after `BRD`: the border on a dark image. -/
def bordered (s : State) : Image :=
  ((effect .clr s).issue (borderCommands s.border)).fb

/-- The buffer after `MRK`: the marker added. -/
def composed (s : State) : Image :=
  (({ s with fb := bordered s }).issue [markerCommand s.params.ox s.params.oy s.curX s.curY]).fb

theorem composed_pixel {x y : Nat} (hx : x < 128) (hy : y < 64) :
    (composed s).pixel x y = true ↔ BorderLit s.border x y ∨
      MarkerLit ((s.params.ox + s.curX.toInt).bmod 512) ((s.params.oy + s.curY.toInt).bmod 512) x y := by
  have hb : (bordered s).pixel x y = true ↔ BorderLit s.border x y := by
    rw [bordered, issue_border_pixel _ hx hy]
    simp [effect]
  rw [composed, issue_marker_pixel _ _ _ _ hx hy, hb]

theorem effect_mrk_bordered :
    effect .mrk { s with fb := bordered s, phase := .mrk } = { s with fb := composed s, phase := .fls } :=
  rfl

theorem effects_composer :
    effects composerLines s =
      { s with fb := composed s, disp := composed s, frames := s.frames ++ [composed s], phase := .slpe } := by
  have hbrd : effect .brd (effect .clr s) = { s with fb := bordered s, phase := .mrk } := effect_brd_eq
  rw [composerLines, effects_cons, effects_cons, hbrd, effects_cons, effect_mrk_bordered]
  rfl

theorem effects_workLines {x y : Sample} {vs : List Sample} (h : s.draws = x :: y :: vs) :
    effects workLines s =
      { s.composing x y vs with
        fb := composed (s.composing x y vs)
        disp := composed (s.composing x y vs)
        frames := s.frames ++ [composed (s.composing x y vs)]
        phase := .slpe } := by
  rw [workLines_eq_units, effects_append, effects_axisLines h, effects_composer]
  rfl

/-- Under an accepted origin the composed image is the border and the marker, at the origin plus the cursor. -/
theorem composed_composing_pixel (ha : s.params.accepted = true) (x y : Sample) (vs : List Sample) {px py : Nat}
    (hpx : px < 128) (hpy : py < 64) :
    (composed (s.composing x y vs)).pixel px py = true ↔ BorderLit s.border px py ∨
      MarkerLit (s.params.ox + specCurX x.toNat) (s.params.oy + specCurY y.toNat) px py := by
  obtain ⟨hx, hx', -, -⟩ := specCur_range x
  obtain ⟨-, -, hy, hy'⟩ := specCur_range y
  obtain ⟨hox, hoy⟩ := marker_coordinates ha ⟨hx, hx'⟩ ⟨hy, hy'⟩
  have hpixel := composed_pixel (s := s.composing x y vs) hpx hpy
  change _ ↔ BorderLit s.border px py ∨ MarkerLit ((s.params.ox + (cursorX x).toInt).bmod 512)
    ((s.params.oy + (cursorY y).toInt).bmod 512) px py at hpixel
  rwa [cursorX_toInt, cursorY_toInt, hox, hoy] at hpixel

/-- Settles O36: the run has the effects of the lines, each enabled in its turn; the levels and the cursor are those of
the samples, and the image is the composed one. -/
theorem frameShowsSamples : Obligations.FrameShowsSamples := by
  unfold Obligations.FrameShowsSamples
  intro s x y vs ws ha hirq hp hd ht
  have hq : Quiet s := by simp [Quiet, hirq]
  have hrun := run_effects ha (enabledAll_workLines hq hp) ht
  rw [effects_workLines hd] at hrun
  have himage := @composed_composing_pixel s ha x y vs
  exact ⟨_, hrun, rfl, rfl, rfl, levelOf_sample _ x, levelOf_sample _ y, cursorX_toInt x, cursorY_toInt y, rfl,
    fun _ _ => himage, rfl, rfl, rfl, rfl, rfl, rfl, rfl, rfl, rfl, rfl, rfl, rfl⟩

end Sys2Proof.Machine
end

section
/-! The button handler, press by press (R83 to R86), and the edge detector that raises its lines (R80, R81). -/

namespace Sys2Proof.Machine

variable {i : Instr} {l : Line} {f : State → State} {s : State}

/-- An enabled instruction answers its effect. -/
theorem exec_eq_effect (h : Enabled i s) : exec i s = .next (effect i s) :=
  exec_next.2 ⟨h, rfl⟩

/-- The gate after the entry reads the times of the state before it: an accepted press runs the body (R83). -/
theorem gated_interruptEntry_accepted (h : 200 < (s.timeMs - s.last).toNat) :
    gated f (s.interruptEntry l) = { f (s.interruptEntry l) with last := s.timeMs } :=
  gated_accepted ((accepts_interruptEntry l).trans (accepts_iff.2 h))

/-- A dropped press leaves the entry's work, the cleared pending bit, and nothing else (R86). -/
theorem gated_interruptEntry_dropped (h : (s.timeMs - s.last).toNat ≤ 200) :
    gated f (s.interruptEntry l) = s.interruptEntry l :=
  gated_dropped ((accepts_interruptEntry l).trans (accepts_eq_false.2 h))

theorem flipLedEn_of_on (h : s.ledEn = true) : flipLedEn s =
    { s with ledEn := false, pwmX := 0#12, pwmY := 0#12, outLog := s.outLog ++ [.pwmX 0#12, .pwmY 0#12] } := by
  simp [flipLedEn, h, State.outWrite]

theorem flipLedEn_of_off (h : s.ledEn = false) : flipLedEn s = { s with ledEn := true } := by
  simp [flipLedEn, h]

/-- Settles O16: the gate runs the body, and the body has one equation for each value of `LED_EN`. -/
theorem acceptedButtonAFlipsEnable : Obligations.AcceptedButtonAFlipsEnable := by
  unfold Obligations.AcceptedButtonAFlipsEnable
  intro s he ha
  rw [exec_eq_effect he, effect, gated_interruptEntry_accepted ha]
  constructor
  · intro hon
    rw [flipLedEn_of_on (s := s.interruptEntry .buttonA) hon]
    rfl
  · intro hoff
    rw [flipLedEn_of_off (s := s.interruptEntry .buttonA) hoff]
    rfl

/-- Settles O17: the gate runs the body, and the border's next code is one more modulo 3. -/
theorem acceptedJoystickFlipsGreen : Obligations.AcceptedJoystickFlipsGreen := by
  unfold Obligations.AcceptedJoystickFlipsGreen
  intro s he ha
  refine ⟨_, exec_eq_effect he, ?_⟩
  rw [effect, gated_interruptEntry_accepted ha, flipGreen_eq]
  exact ⟨Border.next_code s.border, rfl⟩

/-- Settles O18: on either line the gate drops the press, and only the entry's work is left. -/
theorem droppedPressChangesNothing : Obligations.DroppedPressChangesNothing := by
  unfold Obligations.DroppedPressChangesNothing
  intro s hd
  constructor
  · intro he
    rw [exec_eq_effect he, effect, gated_interruptEntry_dropped hd]
    rfl
  · intro he
    rw [exec_eq_effect he, effect, gated_interruptEntry_dropped hd]
    rfl

/-- Settles O23: the detector only adds edges to the pending bits, and both bits are clear where `INPUT` is enabled. -/
theorem inputRaisesFallingEdges : Obligations.InputRaisesFallingEdges := by
  unfold Obligations.InputRaisesFallingEdges
  intro s a j he
  have hq : Quiet s := he
  obtain ⟨hqa, hqj⟩ := hq
  refine ⟨_, exec_eq_effect he, ?_, ?_, rfl⟩
  · simp [effect, hqa]
  · simp [effect, hqj]

end Sys2Proof.Machine
end

section
/-! The sampler and the dead-zone mapper (R100 to R105): each operation's effect, written as the fields it changes. -/

namespace Sys2Proof.Machine

variable {s : State}

/-- Settles O1: the effect of an enabled `SELX` or `SELY` is the named selection and the phase advance. -/
theorem selectSwitchesConverter : Obligations.SelectSwitchesConverter :=
  fun _ => ⟨exec_eq_effect, exec_eq_effect⟩

/-- A read with a queued sample uses it up (R30). -/
theorem adcDone_of_draws_cons {v : Sample} {vs : List Sample} (h : s.draws = v :: vs) :
    s.adcDone =
      { s with draws := vs, freeCount := s.freeCount + 1, adcLog := s.adcLog ++ [.read s.adcSel v] } := by
  rw [State.adcDone, adcSample_cons h, h]
  rfl

/-- A read with nothing queued leaves the queue as it is. -/
theorem adcDone_of_draws_nil (h : s.draws = []) :
    s.adcDone =
      { s with freeCount := s.freeCount + 1, adcLog := s.adcLog ++ [.read s.adcSel s.adcSample] } := by
  simp [State.adcDone, h]

/-- Settles O2: `RAW` takes the very sample that the read records, the first queued one or the environment's free
value. -/
theorem readTakesEnvironmentSample : Obligations.ReadTakesEnvironmentSample := by
  unfold Obligations.ReadTakesEnvironmentSample
  intro s v vs
  refine ⟨fun he hd => ?_, fun he hd => ?_, fun he hd => ⟨s.adcSample, ?_⟩, fun he hd => ⟨s.adcSample, ?_⟩⟩
  · rw [exec_eq_effect he, effect, adcDone_of_draws_cons hd, adcSample_cons hd]
    rfl
  · rw [exec_eq_effect he, effect, adcDone_of_draws_cons hd, adcSample_cons hd]
    rfl
  · rw [exec_eq_effect he, effect, adcDone_of_draws_nil hd]
    rfl
  · rw [exec_eq_effect he, effect, adcDone_of_draws_nil hd]
    rfl

/-- Settles O3: the deflection and the flag that an enabled `DZX` or `DZY` writes are those of the axis's sample. -/
theorem deadZoneMapsSample : Obligations.DeadZoneMapsSample := by
  unfold Obligations.DeadZoneMapsSample
  intro s
  obtain ⟨hdx, hcx⟩ := deflection_centred s.rawX
  obtain ⟨hdy, hcy⟩ := deflection_centred s.rawY
  exact ⟨fun he => ⟨_, exec_eq_effect he, hdx, hcx, rfl⟩, fun he => ⟨_, exec_eq_effect he, hdy, hcy, rfl⟩⟩

end Sys2Proof.Machine
end

section
/-! The brightness scaler (R111 to R116): the branches of the level, and the level as a function of the sample. -/

namespace Sys2Proof.Machine

variable {cen : Bool} {d : Deflection} {s : State}

/-- The three branches of the level, each under its own condition (R111, R113). -/
theorem levelOf_branches (en cen : Bool) (d : Deflection) :
    (en = false → levelOf en cen d = 0#12) ∧ (cen = true → levelOf en cen d = 0#12) ∧
      (en = true → cen = false → 200 ≤ d.toNat → d.toNat ≤ 2247 →
        (levelOf en cen d).toNat = (d.toNat - 200) * 2) := by
  refine ⟨?_, ?_, ?_⟩
  · rintro rfl
    exact levelOf_off cen d
  · rintro rfl
    exact levelOf_centred en d
  · rintro rfl rfl hlo hhi
    exact levelOf_on d hlo hhi

/-- Settles O4: the level an enabled `LVLX` or `LVLY` writes has the three branches, and nothing else but `PHASE`
changes. -/
theorem levelFollowsModeAndDeflection : Obligations.LevelFollowsModeAndDeflection :=
  fun s => ⟨fun he => ⟨_, exec_eq_effect he, rfl, levelOf_branches s.ledEn s.cenX s.dx⟩,
    fun he => ⟨_, exec_eq_effect he, rfl, levelOf_branches s.ledEn s.cenY s.dy⟩⟩

/-- Settles O5: the effect of an enabled `DRVX` or `DRVY` is the recorded write of the level and the phase advance. -/
theorem driveWritesLevel : Obligations.DriveWritesLevel :=
  fun _ => ⟨exec_eq_effect, exec_eq_effect⟩

/-- A deflection and a flag that agree with a sample are the ones computed from it, so their level is the sample's
(R115). -/
theorem levelOf_mapped {v : Sample} (en : Bool)
    (h : d.toNat = ((2048 : Int) - v.toNat).natAbs ∧ (cen = true ↔ d.toNat ≤ 200)) :
    (levelOf en cen d).toNat = specLevel en v.toNat := by
  obtain ⟨hdist, hflag⟩ := h
  obtain ⟨hdist', hflag'⟩ := deflection_centred v
  obtain rfl : d = deflection v := BitVec.eq_of_toNat_eq (hdist.trans hdist'.symm)
  obtain rfl : cen = centred v := Bool.eq_iff_iff.2 (hflag.trans hflag'.symm)
  exact levelOf_sample en v

/-- Settles O6: at `LVLX` and `LVLY` the invariant ties deflection and flag to the sample, and the step keeps the
invariant, by which the new level is a legal one. -/
theorem levelIsFunctionOfSample : Obligations.LevelIsFunctionOfSample := by
  unfold Obligations.LevelIsFunctionOfSample
  intro s hinv
  constructor
  · intro he
    have hmapped := hinv.mapped_x (by simp [he.2, Phase.code])
    exact ⟨_, exec_eq_effect he, levelOf_mapped s.ledEn hmapped, (hinv.effect_of_enabled he).lvl_legal.1⟩
  · intro he
    have hmapped := hinv.mapped_y (by simp [he.2, Phase.code])
    exact ⟨_, exec_eq_effect he, levelOf_mapped s.ledEn hmapped, (hinv.effect_of_enabled he).lvl_legal.2⟩

end Sys2Proof.Machine
end

section
/-! The cursor mapper (R121, R122): the cursor as a function of the samples, its monotonicity and its range. -/

namespace Sys2Proof.Machine

variable {s t : State}

/-- A larger sample on the X axis gives no smaller coordinate (R122). -/
theorem specCurX_mono : Monotone specCurX := fun m n h => by
  have hdiv : m * 120 / 4095 ≤ n * 120 / 4095 := Nat.div_le_div_right (Nat.mul_le_mul_right 120 h)
  unfold specCurX
  omega

/-- The Y axis is inverted: a larger sample gives no larger coordinate (R122). -/
theorem specCurY_antitone : Antitone specCurY := fun m n h => by
  have hdiv : m * 56 / 4095 ≤ n * 56 / 4095 := Nat.div_le_div_right (Nat.mul_le_mul_right 56 h)
  unfold specCurY
  omega

/-- A completed `CMAP` leaves the cursor of its two samples (R121). -/
theorem cmap_cursor (h : exec .cmap s = .next t) :
    t.curX.toInt = specCurX s.rawX.toNat ∧ t.curY.toInt = specCurY s.rawY.toNat := by
  obtain ⟨-, rfl⟩ := exec_next.1 h
  exact ⟨cursorX_toInt s.rawX, cursorY_toInt s.rawY⟩

/-- Settles O9: the cursor is that of the samples, whose coordinate functions are monotone and bounded. -/
theorem cursorMonotoneInRange : Obligations.CursorMonotoneInRange := by
  unfold Obligations.CursorMonotoneInRange
  intro s s' t t' hs ht
  obtain ⟨hsx, hsy⟩ := cmap_cursor hs
  obtain ⟨htx, hty⟩ := cmap_cursor ht
  obtain ⟨hxlo, hxhi, -, -⟩ := specCur_range s.rawX
  obtain ⟨-, -, hylo, hyhi⟩ := specCur_range s.rawY
  rw [hsx, hsy, htx, hty]
  exact ⟨fun h => specCurX_mono h, fun h => specCurY_antitone h, hxlo, hxhi, hylo, hyhi⟩

/-- Settles O8: the effect of an enabled `CMAP` is the cursor of the samples and the phase advance. -/
theorem cursorMapsSamples : Obligations.CursorMapsSamples := by
  unfold Obligations.CursorMapsSamples
  intro s he
  have hexec := exec_eq_effect he
  obtain ⟨hx, hy⟩ := cmap_cursor hexec
  exact ⟨_, hexec, hx, hy, rfl⟩

end Sys2Proof.Machine
end

section
/-! The composer and the framebuffer (R130 to R141): what each operation does to every pixel, and that it changes
nothing but the buffer, or, for a flush, the display. -/

namespace Sys2Proof.Machine

variable {s : State}

/-- Settles O13: `RECT` runs `FbRect` on the buffer, whose pixels `fbRect_lit` gives in the words of R138. -/
theorem rectAddsItsPixels : Obligations.RectAddsItsPixels := by
  unfold Obligations.RectAddsItsPixels
  intro s fill x y w h he
  exact ⟨_, exec_eq_effect he, fun _ _ hx hy => fbRect_lit fill x y w h s.fb hx hy, rfl⟩

/-- Settles O10: both leave the buffer `FbClear` makes, dark at every position. -/
theorem clearDarkensEveryPixel : Obligations.ClearDarkensEveryPixel := by
  unfold Obligations.ClearDarkensEveryPixel
  intro s
  have hdark : ∀ x y, x < 128 → y < 64 → fbClear.pixel x y = false := fun x y _ _ => pixel_fbClear x y
  exact ⟨fun he => ⟨_, exec_eq_effect he, hdark, rfl⟩, fun he => ⟨_, exec_eq_effect he, hdark, rfl⟩⟩

/-- Settles O11: the border's commands add its pixels, whatever the style, and frame every field but `FB`. -/
theorem borderFollowsStyle : Obligations.BorderFollowsStyle := by
  unfold Obligations.BorderFollowsStyle
  intro s he
  exact ⟨_, exec_eq_effect he, fun _ _ hx hy => issue_border_pixel s.border hx hy, effect_brd_eq⟩

/-- `MRK` adds the marker's square at the origin plus the cursor, each sum held in 9 bits (R133, R136). -/
theorem effect_mrk_pixel {x y : Nat} (hx : x < 128) (hy : y < 64) :
    (effect .mrk s).fb.pixel x y = true ↔ s.fb.pixel x y = true ∨
      MarkerLit ((s.params.ox + s.curX.toInt).bmod 512) ((s.params.oy + s.curY.toInt).bmod 512) x y :=
  issue_marker_pixel s.params.ox s.params.oy s.curX s.curY hx hy

/-- Settles O12: the marker's command adds its square, and under an accepted configuration no coordinate of a cursor in
its range leaves the 9-bit field. -/
theorem markerDrawnAtCursor : Obligations.MarkerDrawnAtCursor := by
  unfold Obligations.MarkerDrawnAtCursor
  intro s he
  refine ⟨_, exec_eq_effect he, fun _ _ => effect_mrk_pixel, ?_, rfl⟩
  intro ha hxlo hxhi hylo hyhi x y hx hy
  obtain ⟨hcol, hrow⟩ := marker_coordinates ha ⟨hxlo, hxhi⟩ ⟨hylo, hyhi⟩
  have hpixel := effect_mrk_pixel (s := s) hx hy
  rwa [hcol, hrow] at hpixel

/-- Settles O14: the effect of an enabled `FLS` or `FLUSH` is the whole-image copy, and for `FLS` the phase advance. -/
theorem flushReplacesDisplay : Obligations.FlushReplacesDisplay :=
  fun _ => ⟨exec_eq_effect, exec_eq_effect⟩

end Sys2Proof.Machine
end

section
/-! The frame's period (R152, R153, R159, R160): ticks anywhere among the working operations, then a sleep of at least
100 ms. -/

namespace Sys2Proof.Machine

variable {is js : List Instr} {p : Phase} {s : State}

theorem enabledAll_append : EnabledAll (is ++ js) s ↔ EnabledAll is s ∧ EnabledAll js (effects is s) := by
  induction is generalizing s with
  | nil => simp [EnabledAll, effects]
  | cons i is ih => simp only [List.cons_append, EnabledAll, ih, effects_cons, and_assoc]

theorem effect_foreground_timeMs (p : Phase) (s : State) : (effect p.instr s).timeMs = s.timeMs := by
  cases p with
  | brd => rw [Phase.instr, effect_brd_eq]
  | _ => rfl

theorem phase_instr_ne_tick (p : Phase) : p.instr ≠ .tick := by
  cases p <;> decide

/-- The operations of `n` consecutive phases up to the sleep, with ticks anywhere among them: each line is enabled where
its turn comes, and the whole moves the phase by `n` and the time by the number of ticks. -/
theorem phases_among_ticks {n : Nat} (hq : Quiet s) (hp : s.phase = p) (hn : p.code.toNat + n ≤ 16)
    (hf : is.filter (fun i => decide (i ≠ .tick)) = (phasesFrom p n).map Phase.instr) :
    EnabledAll is s ∧ Quiet (effects is s) ∧ (effects is s).phase = Phase.next^[n] p ∧
      (effects is s).timeMs = s.timeMs + BitVec.ofNat 32 (is.countP fun i => decide (i = .tick)) := by
  induction is generalizing p n s with
  | nil =>
    obtain rfl : n = 0 := by
      cases n with
      | zero => rfl
      | succ n => simp [phasesFrom] at hf
    exact ⟨trivial, hq, hp, (BitVec.add_zero _).symm⟩
  | cons i is ih =>
    rw [effects_cons]
    by_cases hi : i = .tick
    · subst hi
      rw [List.filter_cons_of_neg (by simp)] at hf
      obtain ⟨he, hq', hp', ht⟩ := ih (s := effect .tick s) hq hp hn hf
      refine ⟨⟨rfl, hq, he⟩, hq', hp', ht.trans ?_⟩
      rw [List.countP_cons_of_pos (by simp), add_ofNat_succ]
      rfl
    · rw [List.filter_cons_of_pos (by simpa using hi)] at hf
      cases n with
      | zero => simp [phasesFrom] at hf
      | succ n =>
        obtain ⟨rfl, hrest⟩ : i = p.instr ∧ _ = (phasesFrom p.next n).map Phase.instr := List.cons.inj hf
        have hne : p ≠ .slpw := by
          rintro rfl
          simp [Phase.code] at hn
        have hqn : Quiet (effect p.instr s) := by rwa [Quiet, effect_foreground_irqPend]
        obtain ⟨he, hq', hp', ht⟩ := ih hqn (effect_foreground_phase p s) (by rw [Phase.next_code]; omega) hrest
        refine ⟨⟨wellFormed_phase p, enabled_foreground hq hp hne, he⟩, hq', hp', ht.trans ?_⟩
        rw [effect_foreground_timeMs, List.countP_cons_of_neg (by simpa using hi)]

/-- The lines of `SLEEP` with `n` ticks in place of 100 (R71, R160): `SLPE`, the ticks, `SLPW`. -/
def sleepFor (n : Nat) : List Instr := .slpe :: (List.replicate n .tick ++ [.slpw])

/-- The sleep is over after 100 ticks or more, short of a whole turn of the counter (R153). -/
theorem enabledAll_sleepFor {n : Nat} (hq : Quiet s) (hp : s.phase = .slpe) (hlo : 100 ≤ n) (hhi : n < 2 ^ 32) :
    EnabledAll (sleepFor n) s := by
  have helapsed : (s.timeMs + BitVec.ofNat 32 n - s.timeMs).toNat = n := by
    rw [BitVec.add_comm, BitVec.add_sub_cancel, BitVec.toNat_ofNat, Nat.mod_eq_of_lt hhi]
  exact ⟨rfl, ⟨hq, hp⟩, enabledAll_ticks n hq ⟨rfl, ⟨hq, rfl, hlo.trans_eq helapsed.symm⟩, trivial⟩⟩

theorem effects_sleepFor (n : Nat) : effects (sleepFor n) s =
    { s with phase := .selx, slpT0 := s.timeMs, timeMs := s.timeMs + BitVec.ofNat 32 n } := by
  rw [sleepFor, effects_cons, effects_append, effects_ticks]
  rfl

/-- Settles O43: the work's lines lead to `SLPE` and take a millisecond for each tick among them, and the sleep takes
100 and the delay. -/
theorem framePeriodIsHundredPlusWork : Obligations.FramePeriodIsHundredPlusWork := by
  unfold Obligations.FramePeriodIsHundredPlusWork
  intro s work d ws ha hirq hp hwork hd ht
  have hq : Quiet s := by simp [Quiet, hirq]
  have hlines : (Instr.selx :: work).filter (fun i => decide (i ≠ .tick)) = (phasesFrom .selx 15).map Phase.instr :=
    (List.filter_cons_of_pos rfl).trans (congrArg (Instr.selx :: ·) hwork)
  obtain ⟨hework, hqs, hps, htime⟩ := phases_among_ticks hq hp (by decide) hlines
  have hesleep := enabledAll_sleepFor (n := 100 + d) hqs hps (by omega) (by omega)
  have hrun := run_effects ha (enabledAll_append.2 ⟨hework, hesleep⟩) ht
  rw [effects_append, effects_sleepFor] at hrun
  have hlength : (Instr.selx :: work ++ sleepFor (100 + d)).length = work.length + d + 103 := by
    simp only [sleepFor, List.length_append, List.length_cons, List.length_replicate, List.length_nil]
    omega
  rw [hlength] at hrun
  have hms : (effects (.selx :: work) s).timeMs + BitVec.ofNat 32 (100 + d) =
      s.timeMs + BitVec.ofNat 32 (100 + work.countP (fun i => decide (i = .tick)) + d) := by
    rw [htime, List.countP_cons_of_neg (by simp), BitVec.add_assoc, ← BitVec.ofNat_add]
    congr 2
    omega
  refine ⟨_, _, hrun, rfl, rfl, hms, rfl, fun hwithin bound hbound => ?_⟩
  have := hwithin bound hbound
  omega

end Sys2Proof.Machine
end

section
/-! The scheduling rule on every instruction (R150, R153, R158): a step that is not enabled is refused, and why; and the
step the free-running block takes. -/

namespace Sys2Proof.Machine

variable {i : Instr} {l : Line} {p : Phase} {f : State → State} {r : Result} {s : State}

theorem pending_of_not_quiet (h : ¬ Quiet s) : s.pending = true :=
  Bool.eq_true_of_not_eq_false fun hp => h (pending_eq_false.1 hp)

theorem not_quiet_of_line (h : s.irqPend.a = true ∨ s.irqPend.j = true) : ¬ Quiet s := by
  rintro ⟨ha, hj⟩
  simp [ha, hj] at h

/-- The companion of `effect`: the reason why an instruction that is not enabled is refused. The row of `RESET`, which is
always enabled, is never used. -/
def refusal (i : Instr) (s : State) : Refusal :=
  match i with
  | .irqA | .irqJ => .lineNotPending
  | .clear | .rect _ _ _ _ _ | .flush | .tick | .input _ _ | .reset => .interruptPending
  | .slpw =>
    if s.pending then .interruptPending else if s.phase = .slpw then .sleepNotOver else .otherPhase
  | .selx | .rdx | .sely | .rdy | .dzx | .dzy | .cmap | .lvlx | .drvx | .lvly | .drvy
  | .clr | .brd | .mrk | .fls | .slpe =>
    if s.pending then .interruptPending else .otherPhase

theorem whenSelected_refused (h : ¬ (Quiet s ∧ s.phase = p)) :
    whenSelected p s r = .refused (if s.pending then .interruptPending else .otherPhase) := by
  unfold whenSelected
  split
  next => rfl
  next hp =>
    have hq : Quiet s := not_imp_comm.1 pending_of_not_quiet hp
    exact if_neg fun hphase => h ⟨hq, hphase⟩

/-- A foreground operation but `SLPW` has no condition of its own (R150, R158). -/
theorem exec_phase (hne : p ≠ .slpw) : exec p.instr s = whenSelected p s (.next (effect p.instr s)) := by
  cases p with
  | slpw => exact absurd rfl hne
  | _ => rfl

theorem exec_phase_refused (hne : p ≠ .slpw) (h : ¬ (Quiet s ∧ s.phase = p)) :
    exec p.instr s = .refused (if s.pending then .interruptPending else .otherPhase) :=
  (exec_phase hne).trans (whenSelected_refused h)

theorem whenQuiet_refused (h : ¬ Quiet s) : whenQuiet s r = .refused .interruptPending :=
  if_pos (pending_of_not_quiet h)

theorem takeInterrupt_refused (h : ¬ s.irqPend.get l = true) : takeInterrupt l f s = .refused .lineNotPending :=
  if_neg h

theorem execSlpw_refused (h : ¬ Enabled .slpw s) : execSlpw s = .refused (refusal .slpw s) := by
  unfold execSlpw whenSelected refusal
  split
  next => rfl
  next hp =>
    have hq : Quiet s := not_imp_comm.1 pending_of_not_quiet hp
    split
    next hphase => rw [if_neg fun hover => h ⟨hq, hphase, sleepOver_iff.1 hover⟩]
    next => rfl

/-- A step that is not enabled is refused, with its reason. -/
theorem exec_refused (h : ¬ Enabled i s) : exec i s = .refused (refusal i s) := by
  cases i with
  | irqA => exact takeInterrupt_refused (l := .buttonA) h
  | irqJ => exact takeInterrupt_refused (l := .joystick) h
  | clear | rect | flush | tick | input => exact whenQuiet_refused h
  | reset => exact absurd trivial h
  | slpw => exact execSlpw_refused h
  | _ => exact exec_phase_refused (by decide) h

/-- Every step but the handler's and `RESET` is enabled only while nothing is pending (R158). -/
theorem quiet_of_enabled (hA : i ≠ .irqA) (hJ : i ≠ .irqJ) (hR : i ≠ .reset) (h : Enabled i s) : Quiet s := by
  cases i with
  | irqA => exact absurd rfl hA
  | irqJ => exact absurd rfl hJ
  | reset => exact absurd rfl hR
  | clear | rect | flush | tick | input => exact h
  | _ => exact h.1

theorem refusal_of_pending (hA : i ≠ .irqA) (hJ : i ≠ .irqJ) (hp : s.pending = true) :
    refusal i s = .interruptPending := by
  cases i with
  | irqA => exact absurd rfl hA
  | irqJ => exact absurd rfl hJ
  | clear | rect | flush | tick | input | reset => rfl
  | _ => exact if_pos hp

/-- Settles O25: an enabled instruction answers its effect, and any other is refused with its reason. -/
theorem completesExactlyWhenEnabled : Obligations.CompletesExactlyWhenEnabled :=
  fun _ _ => ⟨fun h => ⟨_, exec_eq_effect h⟩, fun h => ⟨_, exec_refused h⟩⟩

/-- Settles O26: none of these steps is enabled while a line is pending, and the pending line is the reason given. -/
theorem pendingHoldsEverythingElse : Obligations.PendingHoldsEverythingElse := by
  unfold Obligations.PendingHoldsEverythingElse
  intro i s hline hA hJ hR
  have hnq := not_quiet_of_line hline
  rw [exec_refused fun he => hnq (quiet_of_enabled hA hJ hR he),
    refusal_of_pending hA hJ (pending_of_not_quiet hnq)]

/-- Settles O22: the effect of an enabled `TICK` is one addition to `TIME_MS`. -/
theorem tickAddsOneMillisecond : Obligations.TickAddsOneMillisecond :=
  fun s he => ⟨_, exec_eq_effect he, BitVec.toNat_add s.timeMs 1#32, rfl⟩

/-- Settles O15: the effects of enabled `SLPE` and `SLPW`, and the reason why a selected `SLPW` is refused. -/
theorem sleepWaitsHundredMs : Obligations.SleepWaitsHundredMs := by
  unfold Obligations.SleepWaitsHundredMs
  intro s
  refine ⟨exec_eq_effect, exec_eq_effect, fun hqa hqj hphase hearly => ?_⟩
  have hheld : ¬ Enabled .slpw s := fun ⟨_, _, hover⟩ => Nat.not_le.2 hearly hover
  rw [exec_refused hheld]
  simp [refusal, pending_eq_false.2 ⟨hqa, hqj⟩, hphase]

/-! The free-running block (log entry 2). -/

/-- With no word presented the block runs the instruction its own word stands for. -/
theorem step_of_freeWord (ha : s.params.accepted = true) (ht : s.trace = []) (hwf : WellFormed i)
    (hw : s.freeWord = encode i) : step s = exec i { s with freeCount := s.freeCount + 1 } := by
  rw [step_of_decode ha (by rw [nextWord_nil ht, hw, decode_encode hwf]), State.fetched_nil s ht]

theorem enabled_phase_iff : Enabled p.instr s ↔ Quiet s ∧ s.phase = p ∧ (p = .slpw → sleepOver s = true) := by
  cases p with
  | slpw => simp [Enabled, Phase.instr, sleepOver_iff]
  | _ => simp [Enabled, Phase.instr]

theorem encode_phase (p : Phase) : encode p.instr = .phase p.code := by
  cases p <;> rfl

theorem freeWord_of_quiet (h : Quiet s) :
    s.freeWord = if s.phase = .slpw ∧ sleepOver s = false then encode .tick else encode s.phase.instr := by
  obtain ⟨hqa, hqj⟩ := h
  rw [encode_phase]
  simp only [State.freeWord, hqa, hqj]
  rfl

theorem freeWord_of_enabled (h : Enabled s.phase.instr s) : s.freeWord = encode s.phase.instr := by
  obtain ⟨hq, -, hover⟩ := enabled_phase_iff.1 h
  rw [freeWord_of_quiet hq, if_neg fun ⟨hphase, hheld⟩ => by simp [hover hphase] at hheld]

theorem freeWord_of_held (hq : Quiet s) (h : ¬ Enabled s.phase.instr s) : s.freeWord = encode .tick := by
  have hheld : s.phase = .slpw ∧ sleepOver s = false := by
    simpa [enabled_phase_iff, hq] using h
  rw [freeWord_of_quiet hq, if_pos hheld]

/-- With both lines pending the free value takes one of them (R170). -/
theorem freeWord_of_both (h : s.irqPend = ⟨true, true⟩) : s.freeWord = encode .irqA ∨ s.freeWord = encode .irqJ := by
  have hw : s.freeWord = .irq (BitVec.ofBool (Config.irqOrder s.freeCount)) := by simp [State.freeWord, h]
  rw [hw]
  cases Config.irqOrder s.freeCount with
  | false => exact .inl rfl
  | true => exact .inr rfl

/-- Settles O30: the block's word is that of a pending line, of the selected operation where it is enabled, and else of
`TICK`. -/
theorem freeRunPicksEnabledStep : Obligations.FreeRunPicksEnabledStep := by
  unfold Obligations.FreeRunPicksEnabledStep
  intro s ha ht
  refine ⟨fun hirq => ?_, fun hirq => ?_, fun hirq => ?_, fun he => ?_, fun hirq he => ?_⟩
  · exact step_of_freeWord ha ht rfl (by simp [State.freeWord, hirq, encode])
  · exact step_of_freeWord ha ht rfl (by simp [State.freeWord, hirq, encode])
  · exact (freeWord_of_both hirq).imp (step_of_freeWord ha ht rfl) (step_of_freeWord ha ht rfl)
  · exact step_of_freeWord ha ht (wellFormed_phase s.phase) (freeWord_of_enabled he)
  · exact step_of_freeWord ha ht rfl (freeWord_of_held (by simp [Quiet, hirq]) he)

end Sys2Proof.Machine
end

section
/-! No fault and no dead end (R165, R166), and two presses in the same millisecond, of which the handler accepts at most
one (R89, R170). -/

namespace Sys2Proof.Machine

variable {i : Instr} {l l' : Line} {f : State → State} {s : State}

/-! The handler step of any line: the entry, then the gate around the line's own body (R82 to R85). -/

/-- The body `Flip` of a line's arm (R84, R85). -/
def Line.flip (l : Line) : State → State :=
  match l with
  | .buttonA => flipLedEn
  | .joystick => flipGreen

theorem Line.flip_irqPend (l : Line) (s : State) : (l.flip s).irqPend = s.irqPend := by
  cases l with
  | buttonA => rw [Line.flip, flipLedEn_eq]
  | joystick => rfl

theorem Line.flip_timeMs (l : Line) (s : State) : (l.flip s).timeMs = s.timeMs := by
  cases l with
  | buttonA => rw [Line.flip, flipLedEn_eq]
  | joystick => rfl

theorem enabled_line : Enabled l.instr s ↔ s.irqPend.get l = true := by
  cases l <;> rfl

theorem effect_line : effect l.instr s = gated l.flip (s.interruptEntry l) := by
  cases l <;> rfl

theorem gated_irqPend (h : (f s).irqPend = s.irqPend) : (gated f s).irqPend = s.irqPend := by
  cases ha : accepts s with
  | true => rw [gated_accepted ha, ← h]
  | false => rw [gated_dropped ha]

/-- Whatever the gate decides, it is closed afterwards while the time stands: an accepted press has set `LAST` to the
time, and a dropped one has left both (R89 c). -/
theorem accepts_gated (h : (f s).timeMs = s.timeMs) : accepts (gated f s) = false := by
  cases ha : accepts s with
  | true =>
    rw [gated_accepted ha, accepts_eq_false]
    simp [h]
  | false => rwa [gated_dropped ha]

/-- A handler step clears the pending bit of its line and no other (R168). -/
theorem effect_line_irqPend : (effect l.instr s).irqPend = s.irqPend.set l false := by
  rw [effect_line, gated_irqPend (l.flip_irqPend _), State.interruptEntry_irqPend]

theorem accepts_effect_line : accepts (effect l.instr s) = false := by
  rw [effect_line, accepts_gated (l.flip_timeMs _)]

/-- While the gate is closed the step of a pending line does the entry's work only (R86). -/
theorem exec_line_dropped (hp : s.irqPend.get l = true) (hd : accepts s = false) :
    exec l.instr s = .next (s.interruptEntry l) := by
  rw [exec_eq_effect (enabled_line.2 hp), effect_line, gated_dropped ((accepts_interruptEntry l).trans hd)]

/-! Two distinct lines are all the lines there are (R167). -/

theorem Line.eq_of_ne (h : l ≠ l') : l = .buttonA ∧ l' = .joystick ∨ l = .joystick ∧ l' = .buttonA := by
  cases l with
  | buttonA =>
    cases l' with
    | buttonA => exact absurd rfl h
    | joystick => exact .inl ⟨rfl, rfl⟩
  | joystick =>
    cases l' with
    | buttonA => exact .inr ⟨rfl, rfl⟩
    | joystick => exact absurd rfl h

theorem Lines.get_set_of_ne (h : l ≠ l') (ls : Lines) (b : Bool) : (ls.set l b).get l' = ls.get l' := by
  obtain ⟨rfl, rfl⟩ | ⟨rfl, rfl⟩ := Line.eq_of_ne h <;> rfl

theorem Lines.set_set_of_ne (h : l ≠ l') (ls : Lines) (b : Bool) : (ls.set l b).set l' b = ⟨b, b⟩ := by
  obtain ⟨rfl, rfl⟩ | ⟨rfl, rfl⟩ := Line.eq_of_ne h <;> rfl

theorem Lines.get_mk_self (b : Bool) (l : Line) : Lines.get ⟨b, b⟩ l = b := by
  cases l <;> rfl

/-- Settles O20: the first step leaves the second line pending and the gate closed, so the second press is dropped. -/
theorem simultaneousPressesAtMostOne : Obligations.SimultaneousPressesAtMostOne := by
  unfold Obligations.SimultaneousPressesAtMostOne
  intro l l' s hne hirq
  have hpend : ∀ k, s.irqPend.get k = true := fun k => by rw [hirq, Lines.get_mk_self]
  have hpend' : (effect l.instr s).irqPend.get l' = true := by
    rw [effect_line_irqPend, Lines.get_set_of_ne hne, hpend]
  have hclear : (effect l.instr s).irqPend.set l' false = ⟨false, false⟩ := by
    rw [effect_line_irqPend, Lines.set_set_of_ne hne]
  refine ⟨_, exec_eq_effect (enabled_line.2 (hpend l)), ?_⟩
  rw [exec_line_dropped hpend' accepts_effect_line, State.interruptEntry, hclear]

/-! What a step can answer, and which steps a state always has. -/

/-- An instruction answers its effect or a refusal, never a fault (R165). -/
theorem exec_ne_fault (i : Instr) (s : State) (r : Fault) : exec i s ≠ .fault r := by
  by_cases he : Enabled i s
  · rw [exec_eq_effect he]
    nofun
  · rw [exec_refused he]
    nofun

/-- Settles O27: a step answers what its instruction answers, or it is refused before any instruction runs. -/
theorem noStepFaults : Obligations.NoStepFaults := by
  unfold Obligations.NoStepFaults
  intro s r
  cases ha : s.params.accepted with
  | false =>
    rw [step_of_not_accepted ha]
    nofun
  | true =>
    by_cases hd : ∃ i, decode s.nextWord = .ok i
    · obtain ⟨i, hi⟩ := hd
      rw [step_of_decode ha hi]
      exact exec_ne_fault i s.fetched r
    · obtain ⟨e, he⟩ := step_of_decode_ne_ok ha (not_exists.1 hd)
      rw [he]
      nofun

/-- The handler step of a pending line is enabled, and with no line pending `TICK` is (R158). -/
theorem enabled_handler_or_tick (s : State) : Enabled .irqA s ∨ Enabled .irqJ s ∨ Enabled .tick s := by
  by_cases hA : s.irqPend.a = true
  · exact .inl hA
  · by_cases hJ : s.irqPend.j = true
    · exact .inr (.inl hJ)
    · exact .inr (.inr ⟨Bool.eq_false_of_not_eq_true hA, Bool.eq_false_of_not_eq_true hJ⟩)

theorem exec_completes_of_enabled (h : Enabled i s) : ∃ t, exec i s = .next t :=
  ⟨_, exec_eq_effect h⟩

/-- Settles O28: `RESET` is always enabled, and so is a pending line's handler step or else `TICK`. -/
theorem noStateIsStuck : Obligations.NoStateIsStuck := fun s =>
  ⟨exec_completes_of_enabled trivial,
    (enabled_handler_or_tick s).imp exec_completes_of_enabled
      (Or.imp exec_completes_of_enabled exec_completes_of_enabled)⟩

end Sys2Proof.Machine
end

section
/-! Reset and hazards (R190, R197, R198): what `RESET` leaves, the debounce time that both buttons share, and the level
that survives a turn-off. -/

namespace Sys2Proof.Machine

variable {l : Line} {s : State}

/-- Settles O24: `RESET` is enabled in every state, and its effect is the reset state of the configuration. -/
theorem resetGivesStatedValues : Obligations.ResetGivesStatedValues := fun _ =>
  ⟨_, exec_eq_effect trivial, rfl, rfl, rfl, rfl, rfl, rfl, rfl, rfl, rfl, rfl, rfl, rfl, rfl, List.length_replicate⟩

/-! The debounce time is one register for both lines (R14, R83, R87). -/

/-- An accepted trigger of either line sets `LAST` to its own time (R83). -/
theorem effect_line_last (h : 200 < (s.timeMs - s.last).toNat) : (effect l.instr s).last = s.timeMs := by
  rw [effect_line, gated_interruptEntry_accepted h]

/-- Settles O19: `LAST` still holds the time of the accepted press, so the gate is closed for either line. -/
theorem acceptedPressSuppressesBoth : Obligations.AcceptedPressSuppressesBoth := by
  unfold Obligations.AcceptedPressSuppressesBoth
  intro l l' s t u hexec haccepted hlast hpend hsoon
  obtain ⟨-, rfl⟩ := exec_next.1 hexec
  have hlast' : u.last = s.timeMs := hlast.trans (effect_line_last haccepted)
  have hclosed : accepts u = false := accepts_eq_false.2 (by rwa [hlast'])
  exact exec_line_dropped hpend hclosed

/-! The window of R198, step by step: `LVLX`, a fall of Button A's line, `IRQ_A`, `DRVX`. -/

/-- A fall of Button A's line alone, with nothing pending before it, raises its bit alone (R80). -/
theorem effect_input_irqPend_of_fall {j : Bool} (hq : Quiet s) (hb : s.btnPrev = ⟨true, j⟩) :
    (effect (.input false j) s).irqPend = ⟨true, false⟩ := by
  obtain ⟨ha, hj⟩ := hq
  simp [effect, ha, hj, hb]

/-- Settles O7: `LVLX` stores the level of the mode being on, the turn-off changes the mode and the outputs but not that
level, and `DRVX` drives it without a look at the mode. -/
theorem staleLevelAfterTurnOff : Obligations.StaleLevelAfterTurnOff := by
  unfold Obligations.StaleLevelAfterTurnOff
  intro s j he hon hcen hlo hhi hbtn haccepted
  have hquiet : Quiet s := he.1
  have hpend : (effect (.input false j) (effect .lvlx s)).irqPend = ⟨true, false⟩ :=
    effect_input_irqPend_of_fall hquiet hbtn
  have hirq : Enabled .irqA (effect (.input false j) (effect .lvlx s)) := congrArg Lines.a hpend
  have hturnOff := (acceptedButtonAFlipsEnable _ hirq haccepted).1 hon
  have hstale : (levelOf s.ledEn s.cenX s.dx).toNat = (s.dx.toNat - 200) * 2 := by
    rw [hon, hcen, levelOf_on s.dx (by omega) (by omega)]
  have hpositive : 0 < (levelOf s.ledEn s.cenX s.dx).toNat := by omega
  exact ⟨_, _, _, _, exec_eq_effect he, exec_eq_effect hquiet, hturnOff,
    exec_eq_effect ⟨⟨rfl, congrArg Lines.j hpend⟩, rfl⟩, rfl, rfl, rfl, rfl, hstale, hpositive⟩

end Sys2Proof.Machine
end
